-- ==== Sys2Proof/Word.lean ====
section
/-! DEFINITION. The widths of the machine (spec/00_scope.md R13, spec/10_state.md R30 to R55): a byte, a short, the
4-bit and 2-bit values of the device bus and the pixel device, and a word of the framebuffer. -/

namespace Sys2Proof

/-- A byte of memory, of a stack or of a device register (R13). -/
abbrev Byte := BitVec 8

/-- A 16-bit value or address; the spec calls it a short (R13). -/
abbrev Short := BitVec 16

/-- A 4-bit value: a port, a local register, a colour selector or a pixel of both layers (R83, R251, R261). -/
abbrev Nibble := BitVec 4

/-- A 2-bit value of one layer of a pixel (R250). -/
abbrev Colour := BitVec 2

/-- A 32-bit word of the framebuffer, or a word index (R51, R52, R54). -/
abbrev PixelWord := BitVec 32

end Sys2Proof
end

