-- ==== Sys2Proof/Machine/Bits.lean ====
section
/-! DEFINITION. Byte order, bit fields and sign extension (spec/00_scope.md R13, R14; spec/20_memory.md R72, R83). -/

namespace Sys2Proof

/-- The high byte of a short, `v[15:8]`. -/
def hiByte (v : Short) : Byte := v.extractLsb' 8 8

/-- The low byte of a short, `v[7:0]`. -/
def loByte (v : Short) : Byte := v.extractLsb' 0 8

/-- The short `{hi, lo}` of two bytes (R13): every 16-bit value is big-endian (R72). -/
def join (hi lo : Byte) : Short := hi ++ lo

/-- A byte as a short, `zext_8` (R14). -/
def zext8 (b : Byte) : Short := b.setWidth 16

/-- A byte read as a two's-complement number, as the short to add, `sext_8` (R14). -/
def sext8 (b : Byte) : Short := b.signExtend 16

/-- The port of a device address, `a[7:4]` (R83). -/
def portOf (a : Byte) : Nibble := a.extractLsb' 4 4

/-- The local register of a device address, `a[3:0]` (R83). -/
def localOf (a : Byte) : Nibble := a.extractLsb' 0 4

end Sys2Proof
end

