-- ==== Sys2Proof/Machine/Params.lean ====
section
/-! DEFINITION. The implementation parameters of spec/00_scope.md R12 at the values the spec decides
(spec/92_eei_decisions.md; log 17: DESIGN CHOICE, the decided values are taken and not varied). -/

namespace Sys2Proof.Params

/-- MEM_SIZE (R12, R30). -/
def memSize : Nat := 65536

/-- The greatest stack pointer, the usable depth of a stack (R12, R40). -/
def stackDepth : Byte := 255#8

/-- WST_ENTRY_CLAMP (R12, R142). -/
def wstEntryClamp : Byte := 0xF8#8

/-- PROGRAM_BASE (R12, D14). -/
def programBase : Nat := 0x0100

/-- HALT_PORT (R12, D9). -/
def haltPort : Nibble := 0#4

/-- HALT_OFFSET (R12, D9). -/
def haltOffset : Nibble := 0xF#4

/-- NOOP_PORTS = 7, 0xC, 0xD, 0xE, 0xF (R12, R89, D39). -/
def noopPort (p : Nibble) : Bool :=
  p == 0x7#4 || p == 0xC#4 || p == 0xD#4 || p == 0xE#4 || p == 0xF#4

/-- PPW, the pixels of one framebuffer word (R12, D17). -/
def pixelsPerWord : Nat := 8

/-- PPU_DEFAULT_WIDTH (R12, D24). -/
def ppuDefaultWidth : Short := 512#16

/-- PPU_DEFAULT_HEIGHT (R12, D24). -/
def ppuDefaultHeight : Short := 320#16

/-- DIRTY_EMPTY_LO (R12, D22). -/
def dirtyEmptyLo : PixelWord := 0xFFFFFFFF#32

/-- Rows 0 to 3 of BLEND, the table of spec/45_pixel_device.md R262 (D18): the row is the source channel, the column
the requested colour 0x0 to 0xF. -/
def blendRows : List (List Nat) :=
  [ [0, 0, 0, 0, 1, 0, 1, 1, 2, 2, 0, 2, 3, 3, 3, 0],
    [0, 1, 2, 3, 0, 1, 2, 3, 0, 1, 2, 3, 0, 1, 2, 3],
    [1, 2, 3, 1, 1, 2, 3, 1, 1, 2, 3, 1, 1, 2, 3, 1],
    [2, 3, 1, 2, 2, 3, 1, 2, 2, 3, 1, 2, 2, 3, 1, 2] ]

/-- Row 4 of BLEND, the opaque flags (R260, R262). -/
def blendOpaque : List Nat := [0, 1, 1, 1, 1, 0, 1, 1, 1, 1, 0, 1, 1, 1, 1, 0]

/-- `BLEND[ch][color]` for ch in 0..3 (R260, R262). -/
def blend (ch : Colour) (color : Nibble) : Colour :=
  BitVec.ofNat 2 ((blendRows.getD ch.toNat []).getD color.toNat 0)

/-- `BLEND[4][color] = 1` (R260, R262). -/
def opaqueColour (color : Nibble) : Bool := blendOpaque.getD color.toNat 0 == 1

end Sys2Proof.Params
end

