-- ==== Sys2Proof/Syntax.lean ====
section
/-! DEFINITION. The instructions (spec/30_encoding.md R110 to R125): one constructor for each of the 256 rows of
spec/opcode_table.json, in the table's mnemonics (R122: `2` short, `k` keep, `r` return). Only the seven LIT forms carry
an operand, their literal (R119; log 12). -/

namespace Sys2Proof

/-- The width an instruction runs at (spec/00_scope.md R15, R112). -/
inductive Width where
  | byte
  | short
  deriving DecidableEq, Repr

/-- The three mode flags of an opcode byte (R110, R111): keep, return, short. -/
structure Mode where
  keep : Bool
  ret : Bool
  short : Bool
  deriving DecidableEq, Repr

/-- The opcode bodies but LIT, in the order of their indexes 0x01 to 0x1F (R114). -/
inductive Opcode where
  | inc | pop | dup | nip | swp | ovr | rot | equ
  | neq | gth | lth | jmp | jnz | jsr | sth | ldz
  | stz | ldr | str | lda | sta | dei | deo | add
  | sub | mul | div | and | ora | eor | sft
  deriving DecidableEq, Repr

/-- The instructions, in the order of their byte values 0x00 to 0xFF (R117). -/
inductive Instr where
  -- bytes 0x00 to 0x1F
  | brk
  | inc
  | pop
  | dup
  | nip
  | swp
  | ovr
  | rot
  | equ
  | neq
  | gth
  | lth
  | jmp
  | jnz
  | jsr
  | sth
  | ldz
  | stz
  | ldr
  | str
  | lda
  | sta
  | dei
  | deo
  | add
  | sub
  | mul
  | div
  | and
  | ora
  | eor
  | sft
  -- bytes 0x20 to 0x3F
  | lit2 (v : Short)
  | inc2
  | pop2
  | dup2
  | nip2
  | swp2
  | ovr2
  | rot2
  | equ2
  | neq2
  | gth2
  | lth2
  | jmp2
  | jnz2
  | jsr2
  | sth2
  | ldz2
  | stz2
  | ldr2
  | str2
  | lda2
  | sta2
  | dei2
  | deo2
  | add2
  | sub2
  | mul2
  | div2
  | and2
  | ora2
  | eor2
  | sft2
  -- bytes 0x40 to 0x5F
  | litr (v : Byte)
  | incr
  | popr
  | dupr
  | nipr
  | swpr
  | ovrr
  | rotr
  | equr
  | neqr
  | gthr
  | lthr
  | jmpr
  | jnzr
  | jsrr
  | sthr
  | ldzr
  | stzr
  | ldrr
  | strr
  | ldar
  | star
  | deir
  | deor
  | addr
  | subr
  | mulr
  | divr
  | andr
  | orar
  | eorr
  | sftr
  -- bytes 0x60 to 0x7F
  | lit2r (v : Short)
  | inc2r
  | pop2r
  | dup2r
  | nip2r
  | swp2r
  | ovr2r
  | rot2r
  | equ2r
  | neq2r
  | gth2r
  | lth2r
  | jmp2r
  | jnz2r
  | jsr2r
  | sth2r
  | ldz2r
  | stz2r
  | ldr2r
  | str2r
  | lda2r
  | sta2r
  | dei2r
  | deo2r
  | add2r
  | sub2r
  | mul2r
  | div2r
  | and2r
  | ora2r
  | eor2r
  | sft2r
  -- bytes 0x80 to 0x9F
  | litk (v : Byte)
  | inck
  | popk
  | dupk
  | nipk
  | swpk
  | ovrk
  | rotk
  | equk
  | neqk
  | gthk
  | lthk
  | jmpk
  | jnzk
  | jsrk
  | sthk
  | ldzk
  | stzk
  | ldrk
  | strk
  | ldak
  | stak
  | deik
  | deok
  | addk
  | subk
  | mulk
  | divk
  | andk
  | orak
  | eork
  | sftk
  -- bytes 0xA0 to 0xBF
  | lit2k (v : Short)
  | inc2k
  | pop2k
  | dup2k
  | nip2k
  | swp2k
  | ovr2k
  | rot2k
  | equ2k
  | neq2k
  | gth2k
  | lth2k
  | jmp2k
  | jnz2k
  | jsr2k
  | sth2k
  | ldz2k
  | stz2k
  | ldr2k
  | str2k
  | lda2k
  | sta2k
  | dei2k
  | deo2k
  | add2k
  | sub2k
  | mul2k
  | div2k
  | and2k
  | ora2k
  | eor2k
  | sft2k
  -- bytes 0xC0 to 0xDF
  | litkr (v : Byte)
  | inckr
  | popkr
  | dupkr
  | nipkr
  | swpkr
  | ovrkr
  | rotkr
  | equkr
  | neqkr
  | gthkr
  | lthkr
  | jmpkr
  | jnzkr
  | jsrkr
  | sthkr
  | ldzkr
  | stzkr
  | ldrkr
  | strkr
  | ldakr
  | stakr
  | deikr
  | deokr
  | addkr
  | subkr
  | mulkr
  | divkr
  | andkr
  | orakr
  | eorkr
  | sftkr
  -- bytes 0xE0 to 0xFF
  | lit2kr (v : Short)
  | inc2kr
  | pop2kr
  | dup2kr
  | nip2kr
  | swp2kr
  | ovr2kr
  | rot2kr
  | equ2kr
  | neq2kr
  | gth2kr
  | lth2kr
  | jmp2kr
  | jnz2kr
  | jsr2kr
  | sth2kr
  | ldz2kr
  | stz2kr
  | ldr2kr
  | str2kr
  | lda2kr
  | sta2kr
  | dei2kr
  | deo2kr
  | add2kr
  | sub2kr
  | mul2kr
  | div2kr
  | and2kr
  | ora2kr
  | eor2kr
  | sft2kr
  deriving DecidableEq, Repr

end Sys2Proof
end

