-- ==== Sys2Proof/Decode.lean ====
section
/-! DEFINITION. Decoding and encoding (spec/30_encoding.md). The decoder splits a byte into mode flags and opcode index
(R110, R111) and picks the form; the encoder is the table of byte values (R117, R124), written form by form. -/

namespace Sys2Proof

/-- Why bytes do not decode. No byte value is illegal (R118): only missing bytes are refused. -/
inductive DecodeError where
  | noBytes            -- there is no opcode byte
  | truncatedLiteral   -- a LIT form without all its literal bytes (R119)
  deriving DecidableEq, Repr

/-- The opcode byte with mode flags `m` and opcode index `op`: k, r, s, op from bit 7 down (R110). -/
def Mode.opcodeByte (m : Mode) (op : BitVec 5) : Byte :=
  BitVec.ofBool m.keep ++ (BitVec.ofBool m.ret ++ (BitVec.ofBool m.short ++ op))

/-- The mode flags of an opcode byte: keep at bit 7, return at bit 6, short at bit 5 (R111). -/
def modeOf (b : Byte) : Mode := ⟨b.getLsbD 7, b.getLsbD 6, b.getLsbD 5⟩

/-- The opcode index of an opcode byte, bits 4:0 (R110). -/
def indexOf (b : Byte) : BitVec 5 := b.extractLsb' 0 5

/-- The width that a mode selects (R112). -/
def Mode.width (m : Mode) : Width := if m.short then .short else .byte

/-- The opcode index of a body (R114). -/
def Opcode.index : Opcode → BitVec 5
  | .inc => 0x01#5
  | .pop => 0x02#5
  | .dup => 0x03#5
  | .nip => 0x04#5
  | .swp => 0x05#5
  | .ovr => 0x06#5
  | .rot => 0x07#5
  | .equ => 0x08#5
  | .neq => 0x09#5
  | .gth => 0x0A#5
  | .lth => 0x0B#5
  | .jmp => 0x0C#5
  | .jnz => 0x0D#5
  | .jsr => 0x0E#5
  | .sth => 0x0F#5
  | .ldz => 0x10#5
  | .stz => 0x11#5
  | .ldr => 0x12#5
  | .str => 0x13#5
  | .lda => 0x14#5
  | .sta => 0x15#5
  | .dei => 0x16#5
  | .deo => 0x17#5
  | .add => 0x18#5
  | .sub => 0x19#5
  | .mul => 0x1A#5
  | .div => 0x1B#5
  | .and => 0x1C#5
  | .ora => 0x1D#5
  | .eor => 0x1E#5
  | .sft => 0x1F#5

/-- The body of an opcode index (R114); none for index 0, the LIT forms and BRK. -/
def Opcode.ofIndex (op : BitVec 5) : Option Opcode :=
  match op.toNat with
  | 0x00 => none
  | 0x01 => some .inc
  | 0x02 => some .pop
  | 0x03 => some .dup
  | 0x04 => some .nip
  | 0x05 => some .swp
  | 0x06 => some .ovr
  | 0x07 => some .rot
  | 0x08 => some .equ
  | 0x09 => some .neq
  | 0x0A => some .gth
  | 0x0B => some .lth
  | 0x0C => some .jmp
  | 0x0D => some .jnz
  | 0x0E => some .jsr
  | 0x0F => some .sth
  | 0x10 => some .ldz
  | 0x11 => some .stz
  | 0x12 => some .ldr
  | 0x13 => some .str
  | 0x14 => some .lda
  | 0x15 => some .sta
  | 0x16 => some .dei
  | 0x17 => some .deo
  | 0x18 => some .add
  | 0x19 => some .sub
  | 0x1A => some .mul
  | 0x1B => some .div
  | 0x1C => some .and
  | 0x1D => some .ora
  | 0x1E => some .eor
  | _ => some .sft

/-- The eight forms of INC (R171), by keep, return and short flag (R117). -/
def incForm : Mode → Instr
  | ⟨false, false, false⟩ => .inc
  | ⟨false, false, true⟩ => .inc2
  | ⟨false, true, false⟩ => .incr
  | ⟨false, true, true⟩ => .inc2r
  | ⟨true, false, false⟩ => .inck
  | ⟨true, false, true⟩ => .inc2k
  | ⟨true, true, false⟩ => .inckr
  | ⟨true, true, true⟩ => .inc2kr

/-- The eight forms of POP (R172), by keep, return and short flag (R117). -/
def popForm : Mode → Instr
  | ⟨false, false, false⟩ => .pop
  | ⟨false, false, true⟩ => .pop2
  | ⟨false, true, false⟩ => .popr
  | ⟨false, true, true⟩ => .pop2r
  | ⟨true, false, false⟩ => .popk
  | ⟨true, false, true⟩ => .pop2k
  | ⟨true, true, false⟩ => .popkr
  | ⟨true, true, true⟩ => .pop2kr

/-- The eight forms of DUP (R173), by keep, return and short flag (R117). -/
def dupForm : Mode → Instr
  | ⟨false, false, false⟩ => .dup
  | ⟨false, false, true⟩ => .dup2
  | ⟨false, true, false⟩ => .dupr
  | ⟨false, true, true⟩ => .dup2r
  | ⟨true, false, false⟩ => .dupk
  | ⟨true, false, true⟩ => .dup2k
  | ⟨true, true, false⟩ => .dupkr
  | ⟨true, true, true⟩ => .dup2kr

/-- The eight forms of NIP (R174), by keep, return and short flag (R117). -/
def nipForm : Mode → Instr
  | ⟨false, false, false⟩ => .nip
  | ⟨false, false, true⟩ => .nip2
  | ⟨false, true, false⟩ => .nipr
  | ⟨false, true, true⟩ => .nip2r
  | ⟨true, false, false⟩ => .nipk
  | ⟨true, false, true⟩ => .nip2k
  | ⟨true, true, false⟩ => .nipkr
  | ⟨true, true, true⟩ => .nip2kr

/-- The eight forms of SWP (R175), by keep, return and short flag (R117). -/
def swpForm : Mode → Instr
  | ⟨false, false, false⟩ => .swp
  | ⟨false, false, true⟩ => .swp2
  | ⟨false, true, false⟩ => .swpr
  | ⟨false, true, true⟩ => .swp2r
  | ⟨true, false, false⟩ => .swpk
  | ⟨true, false, true⟩ => .swp2k
  | ⟨true, true, false⟩ => .swpkr
  | ⟨true, true, true⟩ => .swp2kr

/-- The eight forms of OVR (R176), by keep, return and short flag (R117). -/
def ovrForm : Mode → Instr
  | ⟨false, false, false⟩ => .ovr
  | ⟨false, false, true⟩ => .ovr2
  | ⟨false, true, false⟩ => .ovrr
  | ⟨false, true, true⟩ => .ovr2r
  | ⟨true, false, false⟩ => .ovrk
  | ⟨true, false, true⟩ => .ovr2k
  | ⟨true, true, false⟩ => .ovrkr
  | ⟨true, true, true⟩ => .ovr2kr

/-- The eight forms of ROT (R177), by keep, return and short flag (R117). -/
def rotForm : Mode → Instr
  | ⟨false, false, false⟩ => .rot
  | ⟨false, false, true⟩ => .rot2
  | ⟨false, true, false⟩ => .rotr
  | ⟨false, true, true⟩ => .rot2r
  | ⟨true, false, false⟩ => .rotk
  | ⟨true, false, true⟩ => .rot2k
  | ⟨true, true, false⟩ => .rotkr
  | ⟨true, true, true⟩ => .rot2kr

/-- The eight forms of EQU (R191), by keep, return and short flag (R117). -/
def equForm : Mode → Instr
  | ⟨false, false, false⟩ => .equ
  | ⟨false, false, true⟩ => .equ2
  | ⟨false, true, false⟩ => .equr
  | ⟨false, true, true⟩ => .equ2r
  | ⟨true, false, false⟩ => .equk
  | ⟨true, false, true⟩ => .equ2k
  | ⟨true, true, false⟩ => .equkr
  | ⟨true, true, true⟩ => .equ2kr

/-- The eight forms of NEQ (R192), by keep, return and short flag (R117). -/
def neqForm : Mode → Instr
  | ⟨false, false, false⟩ => .neq
  | ⟨false, false, true⟩ => .neq2
  | ⟨false, true, false⟩ => .neqr
  | ⟨false, true, true⟩ => .neq2r
  | ⟨true, false, false⟩ => .neqk
  | ⟨true, false, true⟩ => .neq2k
  | ⟨true, true, false⟩ => .neqkr
  | ⟨true, true, true⟩ => .neq2kr

/-- The eight forms of GTH (R193), by keep, return and short flag (R117). -/
def gthForm : Mode → Instr
  | ⟨false, false, false⟩ => .gth
  | ⟨false, false, true⟩ => .gth2
  | ⟨false, true, false⟩ => .gthr
  | ⟨false, true, true⟩ => .gth2r
  | ⟨true, false, false⟩ => .gthk
  | ⟨true, false, true⟩ => .gth2k
  | ⟨true, true, false⟩ => .gthkr
  | ⟨true, true, true⟩ => .gth2kr

/-- The eight forms of LTH (R194), by keep, return and short flag (R117). -/
def lthForm : Mode → Instr
  | ⟨false, false, false⟩ => .lth
  | ⟨false, false, true⟩ => .lth2
  | ⟨false, true, false⟩ => .lthr
  | ⟨false, true, true⟩ => .lth2r
  | ⟨true, false, false⟩ => .lthk
  | ⟨true, false, true⟩ => .lth2k
  | ⟨true, true, false⟩ => .lthkr
  | ⟨true, true, true⟩ => .lth2kr

/-- The eight forms of JMP (R195), by keep, return and short flag (R117). -/
def jmpForm : Mode → Instr
  | ⟨false, false, false⟩ => .jmp
  | ⟨false, false, true⟩ => .jmp2
  | ⟨false, true, false⟩ => .jmpr
  | ⟨false, true, true⟩ => .jmp2r
  | ⟨true, false, false⟩ => .jmpk
  | ⟨true, false, true⟩ => .jmp2k
  | ⟨true, true, false⟩ => .jmpkr
  | ⟨true, true, true⟩ => .jmp2kr

/-- The eight forms of JNZ (R196), by keep, return and short flag (R117). -/
def jnzForm : Mode → Instr
  | ⟨false, false, false⟩ => .jnz
  | ⟨false, false, true⟩ => .jnz2
  | ⟨false, true, false⟩ => .jnzr
  | ⟨false, true, true⟩ => .jnz2r
  | ⟨true, false, false⟩ => .jnzk
  | ⟨true, false, true⟩ => .jnz2k
  | ⟨true, true, false⟩ => .jnzkr
  | ⟨true, true, true⟩ => .jnz2kr

/-- The eight forms of JSR (R197), by keep, return and short flag (R117). -/
def jsrForm : Mode → Instr
  | ⟨false, false, false⟩ => .jsr
  | ⟨false, false, true⟩ => .jsr2
  | ⟨false, true, false⟩ => .jsrr
  | ⟨false, true, true⟩ => .jsr2r
  | ⟨true, false, false⟩ => .jsrk
  | ⟨true, false, true⟩ => .jsr2k
  | ⟨true, true, false⟩ => .jsrkr
  | ⟨true, true, true⟩ => .jsr2kr

/-- The eight forms of STH (R198), by keep, return and short flag (R117). -/
def sthForm : Mode → Instr
  | ⟨false, false, false⟩ => .sth
  | ⟨false, false, true⟩ => .sth2
  | ⟨false, true, false⟩ => .sthr
  | ⟨false, true, true⟩ => .sth2r
  | ⟨true, false, false⟩ => .sthk
  | ⟨true, false, true⟩ => .sth2k
  | ⟨true, true, false⟩ => .sthkr
  | ⟨true, true, true⟩ => .sth2kr

/-- The eight forms of LDZ (R210), by keep, return and short flag (R117). -/
def ldzForm : Mode → Instr
  | ⟨false, false, false⟩ => .ldz
  | ⟨false, false, true⟩ => .ldz2
  | ⟨false, true, false⟩ => .ldzr
  | ⟨false, true, true⟩ => .ldz2r
  | ⟨true, false, false⟩ => .ldzk
  | ⟨true, false, true⟩ => .ldz2k
  | ⟨true, true, false⟩ => .ldzkr
  | ⟨true, true, true⟩ => .ldz2kr

/-- The eight forms of STZ (R211), by keep, return and short flag (R117). -/
def stzForm : Mode → Instr
  | ⟨false, false, false⟩ => .stz
  | ⟨false, false, true⟩ => .stz2
  | ⟨false, true, false⟩ => .stzr
  | ⟨false, true, true⟩ => .stz2r
  | ⟨true, false, false⟩ => .stzk
  | ⟨true, false, true⟩ => .stz2k
  | ⟨true, true, false⟩ => .stzkr
  | ⟨true, true, true⟩ => .stz2kr

/-- The eight forms of LDR (R212), by keep, return and short flag (R117). -/
def ldrForm : Mode → Instr
  | ⟨false, false, false⟩ => .ldr
  | ⟨false, false, true⟩ => .ldr2
  | ⟨false, true, false⟩ => .ldrr
  | ⟨false, true, true⟩ => .ldr2r
  | ⟨true, false, false⟩ => .ldrk
  | ⟨true, false, true⟩ => .ldr2k
  | ⟨true, true, false⟩ => .ldrkr
  | ⟨true, true, true⟩ => .ldr2kr

/-- The eight forms of STR (R213), by keep, return and short flag (R117). -/
def strForm : Mode → Instr
  | ⟨false, false, false⟩ => .str
  | ⟨false, false, true⟩ => .str2
  | ⟨false, true, false⟩ => .strr
  | ⟨false, true, true⟩ => .str2r
  | ⟨true, false, false⟩ => .strk
  | ⟨true, false, true⟩ => .str2k
  | ⟨true, true, false⟩ => .strkr
  | ⟨true, true, true⟩ => .str2kr

/-- The eight forms of LDA (R214), by keep, return and short flag (R117). -/
def ldaForm : Mode → Instr
  | ⟨false, false, false⟩ => .lda
  | ⟨false, false, true⟩ => .lda2
  | ⟨false, true, false⟩ => .ldar
  | ⟨false, true, true⟩ => .lda2r
  | ⟨true, false, false⟩ => .ldak
  | ⟨true, false, true⟩ => .lda2k
  | ⟨true, true, false⟩ => .ldakr
  | ⟨true, true, true⟩ => .lda2kr

/-- The eight forms of STA (R215), by keep, return and short flag (R117). -/
def staForm : Mode → Instr
  | ⟨false, false, false⟩ => .sta
  | ⟨false, false, true⟩ => .sta2
  | ⟨false, true, false⟩ => .star
  | ⟨false, true, true⟩ => .sta2r
  | ⟨true, false, false⟩ => .stak
  | ⟨true, false, true⟩ => .sta2k
  | ⟨true, true, false⟩ => .stakr
  | ⟨true, true, true⟩ => .sta2kr

/-- The eight forms of DEI (R216), by keep, return and short flag (R117). -/
def deiForm : Mode → Instr
  | ⟨false, false, false⟩ => .dei
  | ⟨false, false, true⟩ => .dei2
  | ⟨false, true, false⟩ => .deir
  | ⟨false, true, true⟩ => .dei2r
  | ⟨true, false, false⟩ => .deik
  | ⟨true, false, true⟩ => .dei2k
  | ⟨true, true, false⟩ => .deikr
  | ⟨true, true, true⟩ => .dei2kr

/-- The eight forms of DEO (R217), by keep, return and short flag (R117). -/
def deoForm : Mode → Instr
  | ⟨false, false, false⟩ => .deo
  | ⟨false, false, true⟩ => .deo2
  | ⟨false, true, false⟩ => .deor
  | ⟨false, true, true⟩ => .deo2r
  | ⟨true, false, false⟩ => .deok
  | ⟨true, false, true⟩ => .deo2k
  | ⟨true, true, false⟩ => .deokr
  | ⟨true, true, true⟩ => .deo2kr

/-- The eight forms of ADD (R232), by keep, return and short flag (R117). -/
def addForm : Mode → Instr
  | ⟨false, false, false⟩ => .add
  | ⟨false, false, true⟩ => .add2
  | ⟨false, true, false⟩ => .addr
  | ⟨false, true, true⟩ => .add2r
  | ⟨true, false, false⟩ => .addk
  | ⟨true, false, true⟩ => .add2k
  | ⟨true, true, false⟩ => .addkr
  | ⟨true, true, true⟩ => .add2kr

/-- The eight forms of SUB (R233), by keep, return and short flag (R117). -/
def subForm : Mode → Instr
  | ⟨false, false, false⟩ => .sub
  | ⟨false, false, true⟩ => .sub2
  | ⟨false, true, false⟩ => .subr
  | ⟨false, true, true⟩ => .sub2r
  | ⟨true, false, false⟩ => .subk
  | ⟨true, false, true⟩ => .sub2k
  | ⟨true, true, false⟩ => .subkr
  | ⟨true, true, true⟩ => .sub2kr

/-- The eight forms of MUL (R234), by keep, return and short flag (R117). -/
def mulForm : Mode → Instr
  | ⟨false, false, false⟩ => .mul
  | ⟨false, false, true⟩ => .mul2
  | ⟨false, true, false⟩ => .mulr
  | ⟨false, true, true⟩ => .mul2r
  | ⟨true, false, false⟩ => .mulk
  | ⟨true, false, true⟩ => .mul2k
  | ⟨true, true, false⟩ => .mulkr
  | ⟨true, true, true⟩ => .mul2kr

/-- The eight forms of DIV (R235), by keep, return and short flag (R117). -/
def divForm : Mode → Instr
  | ⟨false, false, false⟩ => .div
  | ⟨false, false, true⟩ => .div2
  | ⟨false, true, false⟩ => .divr
  | ⟨false, true, true⟩ => .div2r
  | ⟨true, false, false⟩ => .divk
  | ⟨true, false, true⟩ => .div2k
  | ⟨true, true, false⟩ => .divkr
  | ⟨true, true, true⟩ => .div2kr

/-- The eight forms of AND (R237), by keep, return and short flag (R117). -/
def andForm : Mode → Instr
  | ⟨false, false, false⟩ => .and
  | ⟨false, false, true⟩ => .and2
  | ⟨false, true, false⟩ => .andr
  | ⟨false, true, true⟩ => .and2r
  | ⟨true, false, false⟩ => .andk
  | ⟨true, false, true⟩ => .and2k
  | ⟨true, true, false⟩ => .andkr
  | ⟨true, true, true⟩ => .and2kr

/-- The eight forms of ORA (R237), by keep, return and short flag (R117). -/
def oraForm : Mode → Instr
  | ⟨false, false, false⟩ => .ora
  | ⟨false, false, true⟩ => .ora2
  | ⟨false, true, false⟩ => .orar
  | ⟨false, true, true⟩ => .ora2r
  | ⟨true, false, false⟩ => .orak
  | ⟨true, false, true⟩ => .ora2k
  | ⟨true, true, false⟩ => .orakr
  | ⟨true, true, true⟩ => .ora2kr

/-- The eight forms of EOR (R237), by keep, return and short flag (R117). -/
def eorForm : Mode → Instr
  | ⟨false, false, false⟩ => .eor
  | ⟨false, false, true⟩ => .eor2
  | ⟨false, true, false⟩ => .eorr
  | ⟨false, true, true⟩ => .eor2r
  | ⟨true, false, false⟩ => .eork
  | ⟨true, false, true⟩ => .eor2k
  | ⟨true, true, false⟩ => .eorkr
  | ⟨true, true, true⟩ => .eor2kr

/-- The eight forms of SFT (R238), by keep, return and short flag (R117). -/
def sftForm : Mode → Instr
  | ⟨false, false, false⟩ => .sft
  | ⟨false, false, true⟩ => .sft2
  | ⟨false, true, false⟩ => .sftr
  | ⟨false, true, true⟩ => .sft2r
  | ⟨true, false, false⟩ => .sftk
  | ⟨true, false, true⟩ => .sft2k
  | ⟨true, true, false⟩ => .sftkr
  | ⟨true, true, true⟩ => .sft2kr

/-- The form of a body in a mode (R117). -/
def Opcode.form (o : Opcode) (m : Mode) : Instr :=
  match o with
  | .inc => incForm m
  | .pop => popForm m
  | .dup => dupForm m
  | .nip => nipForm m
  | .swp => swpForm m
  | .ovr => ovrForm m
  | .rot => rotForm m
  | .equ => equForm m
  | .neq => neqForm m
  | .gth => gthForm m
  | .lth => lthForm m
  | .jmp => jmpForm m
  | .jnz => jnzForm m
  | .jsr => jsrForm m
  | .sth => sthForm m
  | .ldz => ldzForm m
  | .stz => stzForm m
  | .ldr => ldrForm m
  | .str => strForm m
  | .lda => ldaForm m
  | .sta => staForm m
  | .dei => deiForm m
  | .deo => deoForm m
  | .add => addForm m
  | .sub => subForm m
  | .mul => mulForm m
  | .div => divForm m
  | .and => andForm m
  | .ora => oraForm m
  | .eor => eorForm m
  | .sft => sftForm m

/-- The LIT forms, opcode index 0, with the literal read big-endian from the bytes that follow (R116, R119); with all
three flags clear the byte is 0x00, BRK (R115). -/
def decodeLit : Mode → List Byte → Except DecodeError (Instr × List Byte)
  | ⟨false, false, false⟩, rest => .ok (.brk, rest)
  | ⟨false, false, true⟩, hi :: lo :: rest => .ok (.lit2 (join hi lo), rest)
  | ⟨false, true, false⟩, v :: rest => .ok (.litr v, rest)
  | ⟨false, true, true⟩, hi :: lo :: rest => .ok (.lit2r (join hi lo), rest)
  | ⟨true, false, false⟩, v :: rest => .ok (.litk v, rest)
  | ⟨true, false, true⟩, hi :: lo :: rest => .ok (.lit2k (join hi lo), rest)
  | ⟨true, true, false⟩, v :: rest => .ok (.litkr v, rest)
  | ⟨true, true, true⟩, hi :: lo :: rest => .ok (.lit2kr (join hi lo), rest)
  | _, _ => .error .truncatedLiteral

/-- Decode the first instruction of a list of bytes and give the bytes after it. The test for BRK is on the whole byte,
before any flag is read (R115). -/
def decode : List Byte → Except DecodeError (Instr × List Byte)
  | [] => .error .noBytes
  | b :: rest =>
    if b = 0x00#8 then .ok (.brk, rest)
    else
      match Opcode.ofIndex (indexOf b) with
      | some o => .ok (o.form (modeOf b), rest)
      | none => decodeLit (modeOf b) rest

/-- The length in bytes of the instruction that begins with `b` (R121). -/
def lengthOf (b : Byte) : Nat :=
  if b = 0x00#8 ∨ indexOf b ≠ 0#5 then 1 else if b.getLsbD 5 then 3 else 2

/-- The bytes of an instruction, opcode byte first, from the table of byte values (R117, R124, R125). -/
def encode : Instr → List Byte
  | .brk => [0x00#8]
  | .inc => [0x01#8]
  | .pop => [0x02#8]
  | .dup => [0x03#8]
  | .nip => [0x04#8]
  | .swp => [0x05#8]
  | .ovr => [0x06#8]
  | .rot => [0x07#8]
  | .equ => [0x08#8]
  | .neq => [0x09#8]
  | .gth => [0x0A#8]
  | .lth => [0x0B#8]
  | .jmp => [0x0C#8]
  | .jnz => [0x0D#8]
  | .jsr => [0x0E#8]
  | .sth => [0x0F#8]
  | .ldz => [0x10#8]
  | .stz => [0x11#8]
  | .ldr => [0x12#8]
  | .str => [0x13#8]
  | .lda => [0x14#8]
  | .sta => [0x15#8]
  | .dei => [0x16#8]
  | .deo => [0x17#8]
  | .add => [0x18#8]
  | .sub => [0x19#8]
  | .mul => [0x1A#8]
  | .div => [0x1B#8]
  | .and => [0x1C#8]
  | .ora => [0x1D#8]
  | .eor => [0x1E#8]
  | .sft => [0x1F#8]
  | .lit2 v => [0x20#8, hiByte v, loByte v]
  | .inc2 => [0x21#8]
  | .pop2 => [0x22#8]
  | .dup2 => [0x23#8]
  | .nip2 => [0x24#8]
  | .swp2 => [0x25#8]
  | .ovr2 => [0x26#8]
  | .rot2 => [0x27#8]
  | .equ2 => [0x28#8]
  | .neq2 => [0x29#8]
  | .gth2 => [0x2A#8]
  | .lth2 => [0x2B#8]
  | .jmp2 => [0x2C#8]
  | .jnz2 => [0x2D#8]
  | .jsr2 => [0x2E#8]
  | .sth2 => [0x2F#8]
  | .ldz2 => [0x30#8]
  | .stz2 => [0x31#8]
  | .ldr2 => [0x32#8]
  | .str2 => [0x33#8]
  | .lda2 => [0x34#8]
  | .sta2 => [0x35#8]
  | .dei2 => [0x36#8]
  | .deo2 => [0x37#8]
  | .add2 => [0x38#8]
  | .sub2 => [0x39#8]
  | .mul2 => [0x3A#8]
  | .div2 => [0x3B#8]
  | .and2 => [0x3C#8]
  | .ora2 => [0x3D#8]
  | .eor2 => [0x3E#8]
  | .sft2 => [0x3F#8]
  | .litr v => [0x40#8, v]
  | .incr => [0x41#8]
  | .popr => [0x42#8]
  | .dupr => [0x43#8]
  | .nipr => [0x44#8]
  | .swpr => [0x45#8]
  | .ovrr => [0x46#8]
  | .rotr => [0x47#8]
  | .equr => [0x48#8]
  | .neqr => [0x49#8]
  | .gthr => [0x4A#8]
  | .lthr => [0x4B#8]
  | .jmpr => [0x4C#8]
  | .jnzr => [0x4D#8]
  | .jsrr => [0x4E#8]
  | .sthr => [0x4F#8]
  | .ldzr => [0x50#8]
  | .stzr => [0x51#8]
  | .ldrr => [0x52#8]
  | .strr => [0x53#8]
  | .ldar => [0x54#8]
  | .star => [0x55#8]
  | .deir => [0x56#8]
  | .deor => [0x57#8]
  | .addr => [0x58#8]
  | .subr => [0x59#8]
  | .mulr => [0x5A#8]
  | .divr => [0x5B#8]
  | .andr => [0x5C#8]
  | .orar => [0x5D#8]
  | .eorr => [0x5E#8]
  | .sftr => [0x5F#8]
  | .lit2r v => [0x60#8, hiByte v, loByte v]
  | .inc2r => [0x61#8]
  | .pop2r => [0x62#8]
  | .dup2r => [0x63#8]
  | .nip2r => [0x64#8]
  | .swp2r => [0x65#8]
  | .ovr2r => [0x66#8]
  | .rot2r => [0x67#8]
  | .equ2r => [0x68#8]
  | .neq2r => [0x69#8]
  | .gth2r => [0x6A#8]
  | .lth2r => [0x6B#8]
  | .jmp2r => [0x6C#8]
  | .jnz2r => [0x6D#8]
  | .jsr2r => [0x6E#8]
  | .sth2r => [0x6F#8]
  | .ldz2r => [0x70#8]
  | .stz2r => [0x71#8]
  | .ldr2r => [0x72#8]
  | .str2r => [0x73#8]
  | .lda2r => [0x74#8]
  | .sta2r => [0x75#8]
  | .dei2r => [0x76#8]
  | .deo2r => [0x77#8]
  | .add2r => [0x78#8]
  | .sub2r => [0x79#8]
  | .mul2r => [0x7A#8]
  | .div2r => [0x7B#8]
  | .and2r => [0x7C#8]
  | .ora2r => [0x7D#8]
  | .eor2r => [0x7E#8]
  | .sft2r => [0x7F#8]
  | .litk v => [0x80#8, v]
  | .inck => [0x81#8]
  | .popk => [0x82#8]
  | .dupk => [0x83#8]
  | .nipk => [0x84#8]
  | .swpk => [0x85#8]
  | .ovrk => [0x86#8]
  | .rotk => [0x87#8]
  | .equk => [0x88#8]
  | .neqk => [0x89#8]
  | .gthk => [0x8A#8]
  | .lthk => [0x8B#8]
  | .jmpk => [0x8C#8]
  | .jnzk => [0x8D#8]
  | .jsrk => [0x8E#8]
  | .sthk => [0x8F#8]
  | .ldzk => [0x90#8]
  | .stzk => [0x91#8]
  | .ldrk => [0x92#8]
  | .strk => [0x93#8]
  | .ldak => [0x94#8]
  | .stak => [0x95#8]
  | .deik => [0x96#8]
  | .deok => [0x97#8]
  | .addk => [0x98#8]
  | .subk => [0x99#8]
  | .mulk => [0x9A#8]
  | .divk => [0x9B#8]
  | .andk => [0x9C#8]
  | .orak => [0x9D#8]
  | .eork => [0x9E#8]
  | .sftk => [0x9F#8]
  | .lit2k v => [0xA0#8, hiByte v, loByte v]
  | .inc2k => [0xA1#8]
  | .pop2k => [0xA2#8]
  | .dup2k => [0xA3#8]
  | .nip2k => [0xA4#8]
  | .swp2k => [0xA5#8]
  | .ovr2k => [0xA6#8]
  | .rot2k => [0xA7#8]
  | .equ2k => [0xA8#8]
  | .neq2k => [0xA9#8]
  | .gth2k => [0xAA#8]
  | .lth2k => [0xAB#8]
  | .jmp2k => [0xAC#8]
  | .jnz2k => [0xAD#8]
  | .jsr2k => [0xAE#8]
  | .sth2k => [0xAF#8]
  | .ldz2k => [0xB0#8]
  | .stz2k => [0xB1#8]
  | .ldr2k => [0xB2#8]
  | .str2k => [0xB3#8]
  | .lda2k => [0xB4#8]
  | .sta2k => [0xB5#8]
  | .dei2k => [0xB6#8]
  | .deo2k => [0xB7#8]
  | .add2k => [0xB8#8]
  | .sub2k => [0xB9#8]
  | .mul2k => [0xBA#8]
  | .div2k => [0xBB#8]
  | .and2k => [0xBC#8]
  | .ora2k => [0xBD#8]
  | .eor2k => [0xBE#8]
  | .sft2k => [0xBF#8]
  | .litkr v => [0xC0#8, v]
  | .inckr => [0xC1#8]
  | .popkr => [0xC2#8]
  | .dupkr => [0xC3#8]
  | .nipkr => [0xC4#8]
  | .swpkr => [0xC5#8]
  | .ovrkr => [0xC6#8]
  | .rotkr => [0xC7#8]
  | .equkr => [0xC8#8]
  | .neqkr => [0xC9#8]
  | .gthkr => [0xCA#8]
  | .lthkr => [0xCB#8]
  | .jmpkr => [0xCC#8]
  | .jnzkr => [0xCD#8]
  | .jsrkr => [0xCE#8]
  | .sthkr => [0xCF#8]
  | .ldzkr => [0xD0#8]
  | .stzkr => [0xD1#8]
  | .ldrkr => [0xD2#8]
  | .strkr => [0xD3#8]
  | .ldakr => [0xD4#8]
  | .stakr => [0xD5#8]
  | .deikr => [0xD6#8]
  | .deokr => [0xD7#8]
  | .addkr => [0xD8#8]
  | .subkr => [0xD9#8]
  | .mulkr => [0xDA#8]
  | .divkr => [0xDB#8]
  | .andkr => [0xDC#8]
  | .orakr => [0xDD#8]
  | .eorkr => [0xDE#8]
  | .sftkr => [0xDF#8]
  | .lit2kr v => [0xE0#8, hiByte v, loByte v]
  | .inc2kr => [0xE1#8]
  | .pop2kr => [0xE2#8]
  | .dup2kr => [0xE3#8]
  | .nip2kr => [0xE4#8]
  | .swp2kr => [0xE5#8]
  | .ovr2kr => [0xE6#8]
  | .rot2kr => [0xE7#8]
  | .equ2kr => [0xE8#8]
  | .neq2kr => [0xE9#8]
  | .gth2kr => [0xEA#8]
  | .lth2kr => [0xEB#8]
  | .jmp2kr => [0xEC#8]
  | .jnz2kr => [0xED#8]
  | .jsr2kr => [0xEE#8]
  | .sth2kr => [0xEF#8]
  | .ldz2kr => [0xF0#8]
  | .stz2kr => [0xF1#8]
  | .ldr2kr => [0xF2#8]
  | .str2kr => [0xF3#8]
  | .lda2kr => [0xF4#8]
  | .sta2kr => [0xF5#8]
  | .dei2kr => [0xF6#8]
  | .deo2kr => [0xF7#8]
  | .add2kr => [0xF8#8]
  | .sub2kr => [0xF9#8]
  | .mul2kr => [0xFA#8]
  | .div2kr => [0xFB#8]
  | .and2kr => [0xFC#8]
  | .ora2kr => [0xFD#8]
  | .eor2kr => [0xFE#8]
  | .sft2kr => [0xFF#8]

/-- The opcode byte of an instruction. -/
def Instr.opcodeByte (i : Instr) : Byte := (encode i).headD 0x00#8

/-- The three bytes that `w` lays out when bit 0 is the least significant bit of the first byte and bits 15:8 are the
second byte, with every bit from `nbits` on clear. -/
def tableBytes (nbits w : Nat) : List Byte :=
  let v := w % 2 ^ nbits
  [BitVec.ofNat 8 v, BitVec.ofNat 8 (v / 256), BitVec.ofNat 8 (v / 65536)]

/-- The instruction the decoder reads from a word numbered as spec/opcode_table.json numbers its bits. -/
def decodeTableWord (nbits w : Nat) : Option Instr :=
  match decode (tableBytes nbits w) with
  | .ok (i, _) => some i
  | .error _ => none

end Sys2Proof
end

