-- ==== Sys2Proof/Config.lean ====
section
/-! DEFINITION. What stands outside the block and what is left open: the fault-pc policy, the transactions of the
interfaces HOST, TALK and PPU (spec/00_scope.md R7 to R10), and the free values, each an opaque constant without a
body, of which nothing can be proved. -/

namespace Sys2Proof

/-- FAULT_PC_POLICY (spec/60_exceptions.md R297): what pc holds after a fault report. -/
inductive FaultPcPolicy where
  | leave   -- the spec's choice (D6): pc stays after the faulting opcode byte
  | zero    -- pc becomes 0x0000 after the report
  deriving DecidableEq, Repr

/-- A layer of the framebuffer (spec/45_pixel_device.md R250, D40: bg is 0, fg is 1). -/
inductive Layer where
  | bg
  | fg
  deriving DecidableEq, Repr

/-- The arguments of a sprite blit (R264, R265). -/
structure Sprite where
  layer : Layer
  x : Short
  y : Short
  addr : Short
  color : Nibble
  flipx : Bool
  flipy : Bool
  deriving DecidableEq, Repr

/-- A transaction on the interface PPU (spec/00_scope.md R10). -/
inductive PpuCmd where
  | read (x y : Short)
  | write (layer : Layer) (x y : Short) (color : Colour)
  | resize (width height : Short)
  | frameReset
  | blit1 (sprite : Sprite)
  | blit2 (sprite : Sprite)
  deriving DecidableEq, Repr

/-- One effect a device body may have during `talk` on its own port (spec/60_exceptions.md R310). What R310 forbids
(the stacks, pc, another port) has no constructor: log 4. -/
inductive TalkAction where
  | setReg (loc : Nibble) (v : Byte)
  | setVector (v : Short)
  | memWrite (a : Short) (v : Byte)
  | ppu (c : PpuCmd)
  deriving DecidableEq, Repr

/-- The reply of a device body to one `talk`: it returns, with its effects in order (R310), or it issues EVALUATE,
which a model refuses (spec/40_evaluator.md R157). -/
inductive TalkReply where
  | returns (acts : List TalkAction)
  | evaluates (vector : Short)
  deriving DecidableEq, Repr

/-- A transaction of the host (spec/00_scope.md R7, spec/60_exceptions.md R312). -/
inductive HostCmd where
  | load (rom : List Byte)
  | evaluate (vector : Short)
  | pokeMem (a : Short) (v : Byte)
  | pokeDev (port loc : Nibble) (v : Byte)
  | ppu (c : PpuCmd)
  deriving DecidableEq, Repr

/-- FREE VALUE (log 3): the effects of a device body called with `talk(port, loc, isWrite)` where State lists no reply
for the call; `view` is the whole state the body may read (R310). -/
opaque Config.talkReply {σ : Type} (view : σ) (port loc : Nibble) (isWrite : Bool) : List TalkAction

/-- FREE VALUE (log 6): the result of the `draw`-th out-of-bounds pixel read (spec/45_pixel_device.md R254). -/
opaque Config.freeNibble (draw : Nat) : Nibble

end Sys2Proof
end

