-- ==== Sys2Proof/Machine/State.lean ====
section
/-! DEFINITION. The state of the block (spec/10_state.md) as plain data, its reset value (R60), and the reasons a step
can stop. A stack fault of the spec is no reason to stop: its entry is described (spec/60_exceptions.md R296) and is a
next state. -/

namespace Sys2Proof.Machine

/-- The fault kinds (R290). -/
inductive FaultKind where
  | underflow
  | overflow
  | divideByZero
  deriving DecidableEq, Repr

/-- The two stacks (R36, R290): working and return. -/
inductive StackId where
  | working
  | ret
  deriving DecidableEq, Repr

/-- A stack (R35): its bytes, the next free slot, the kept pointer and the fault field. -/
structure Stack where
  dat : Vector Byte 256
  ptr : Byte
  kptr : Byte
  fault : Option FaultKind
  deriving DecidableEq, Repr

/-- A port's registers and event vector (R42, R43). -/
structure Device where
  reg : Vector Byte 16
  vector : Short
  deriving DecidableEq, Repr

/-- A fault report (R49, R296). -/
structure FaultReport where
  kind : FaultKind
  stack : StackId
  opcode : Byte
  pc : Short
  deriving DecidableEq, Repr

/-- Memory (R30) as its non-zero bytes, addresses strictly rising; an unlisted address reads as 0x00, its reset value
(R60; log 10). -/
abbrev Memory := List Host.Cell

/-- The framebuffer words (R52) as the non-zero ones, indexes strictly rising; an unlisted word is 0 (log 11). -/
abbrev PixelWords := List (Nat × PixelWord)

/-- The pixel device (R50 to R55). -/
structure Ppu where
  width : Short
  height : Short
  stride : PixelWord
  pixels : PixelWords
  dirtyLo : PixelWord
  dirtyHi : PixelWord
  redraw : Bool
  deriving DecidableEq, Repr

/-- The state of the block, and after `ppu` the model's own fields (INVENTORY.md). -/
structure State where
  mem : Memory
  pc : Short
  wst : Stack
  rst : Stack
  devs : Vector Device 16
  lastFault : Option FaultReport
  ppu : Ppu
  -- an evaluation is in progress (R140, R144; log 7)
  running : Bool
  -- what the last EVALUATE returned (R140; log 7)
  result : Option Bool
  -- what the last pixel read returned (R253; log 6)
  nibble : Option Nibble
  -- FAULT_PC_POLICY (R297; log 8)
  pcPolicy : FaultPcPolicy
  -- LOAD is still allowed (R333; log 9)
  loadWindow : Bool
  -- the host's pending transactions, oldest first (R7; log 1)
  hostIn : List HostCmd
  -- the device bodies' coming replies, oldest first (R310; log 3)
  talkIn : List TalkReply
  -- how many free values have been drawn (log 3, log 6)
  draws : Nat
  deriving DecidableEq, Repr

/-- Why a step stops with a fault. The spec has no such case: its three faults are next states (R296), no encoding is
illegal and no address is invalid (R294). -/
inductive Fault where
  /-- Raised by `step` if the bytes it fetched are too few for the instruction. Safe. It never happens, since a fetch
  offers three bytes and no instruction is longer (R110, R118). -/
  | truncatedFetch
  deriving DecidableEq, Repr

/-- Why a step is refused. -/
inductive Refusal where
  /-- Raised by an arm of `exec` for an instruction without a meaning. Safe. No arm raises it. -/
  | notModelled (mnemonic : String)
  /-- Raised by `talk`, so by DEI and DEO, when the device body's reply is an EVALUATE (R157: a model refuses such a
  run). Safe. -/
  | reentrantEvaluate
  /-- Raised by the host's LOAD of an image longer than memory above the program base (R333: refused). Safe. -/
  | romTooLong
  /-- Raised by a second LOAD, or one after the first EVALUATE (R312, R333; log 9). Safe. -/
  | loadOutsideWindow
  deriving DecidableEq, Repr

/-- A stack after machine boot: empty, every byte 0x00 (R60). -/
def Stack.reset : Stack where
  dat := Vector.replicate 256 0x00#8
  ptr := 0#8
  kptr := 0#8
  fault := none

/-- A port after machine boot (R60). -/
def Device.reset : Device where
  reg := Vector.replicate 16 0x00#8
  vector := 0x0000#16

/-- The pixel device after machine boot, at its default size (R60). -/
def Ppu.reset : Ppu where
  width := Params.ppuDefaultWidth
  height := Params.ppuDefaultHeight
  stride := 64#32
  pixels := []
  dirtyLo := 0#32
  dirtyHi := 20479#32
  redraw := true

/-- The machine after boot, before LOAD (R60, R330, R331). -/
def State.reset : State where
  mem := []
  pc := 0x0000#16
  wst := Stack.reset
  rst := Stack.reset
  devs := Vector.replicate 16 Device.reset
  lastFault := none
  ppu := Ppu.reset
  running := false
  result := none
  nibble := none
  pcPolicy := .leave
  loadWindow := true
  hostIn := []
  talkIn := []
  draws := 0

end Sys2Proof.Machine
end

