-- ==== Sys2Proof/Machine/Ops.lean ====
section
/-! DEFINITION. The operations every meaning is written with: memory and stack primitives (spec/20_memory.md), the frame
of one instruction (spec/40_evaluator.md R147 to R151), and the entry into a fault and into an evaluation
(spec/60_exceptions.md R296, spec/40_evaluator.md R141 to R143). -/

namespace Sys2Proof.Machine

/-! ## Sparse words in canonical form -/

/-- The word at key `a`; an unlisted one is 0. -/
def Cells.read {n : Nat} (a : Nat) : List (Nat × BitVec n) → BitVec n
  | [] => 0#n
  | (b, x) :: rest => if a = b then x else Cells.read a rest

/-- The list without key `a`. -/
def Cells.erase {n : Nat} (a : Nat) : List (Nat × BitVec n) → List (Nat × BitVec n)
  | [] => []
  | (b, x) :: rest => if a = b then Cells.erase a rest else (b, x) :: Cells.erase a rest

/-- The list with `(a, v)` before the first greater key. -/
def Cells.insert {n : Nat} (a : Nat) (v : BitVec n) : List (Nat × BitVec n) → List (Nat × BitVec n)
  | [] => [(a, v)]
  | (b, x) :: rest => if a < b then (a, v) :: (b, x) :: rest else (b, x) :: Cells.insert a v rest

/-- Store `v` at key `a`; storing 0 removes the entry. -/
def Cells.write {n : Nat} (a : Nat) (v : BitVec n) (m : List (Nat × BitVec n)) : List (Nat × BitVec n) :=
  if v = 0#n then Cells.erase a m else Cells.insert a v (Cells.erase a m)

/-- The canonical form: keys strictly rising from `lo` on and below `limit`, no entry 0. -/
def Cells.wfFrom {n : Nat} (limit : Nat) : Nat → List (Nat × BitVec n) → Bool
  | _, [] => true
  | lo, (a, v) :: rest => decide (lo ≤ a) && decide (a < limit) && decide (v ≠ 0#n) && Cells.wfFrom limit (a + 1) rest

/-! ## Memory -/

/-- Memory's canonical form (log 10). -/
def Memory.wf (m : Memory) : Bool := Cells.wfFrom Params.memSize 0 m

/-- The byte `mem[a]` (R30, R71). -/
def Memory.byte (m : Memory) (a : Short) : Byte := Cells.read a.toNat m

/-- `mem[a] <- v`. -/
def Memory.setByte (m : Memory) (a : Short) (v : Byte) : Memory := Cells.write a.toNat v m

/-- `MemRead(a, w)` (R73): high byte at `a`, the low one at `a + 1` with 16-bit wrap. -/
def Memory.read (m : Memory) (a : Short) : Width → Short
  | .byte => zext8 (m.byte a)
  | .short => join (m.byte a) (m.byte (a + 1))

/-- `MemWrite(a, w, v)` (R74). -/
def Memory.write (m : Memory) (a : Short) (v : Short) : Width → Memory
  | .byte => m.setByte a (loByte v)
  | .short => (m.setByte a (hiByte v)).setByte (a + 1) (loByte v)

/-- Store a list of bytes from `a` on, lowest address first. -/
def Memory.setBytes (m : Memory) (a : Short) : List Byte → Memory
  | [] => m
  | v :: rest => (m.setByte a v).setBytes (a + 1) rest

/-! ## Reaching the parts of State -/

/-- The stack with an identity (R36). -/
def State.stack (s : State) : StackId → Stack
  | .working => s.wst
  | .ret => s.rst

/-- Replace one stack. -/
def State.setStack (s : State) (i : StackId) (S : Stack) : State :=
  match i with
  | .working => { s with wst := S }
  | .ret => { s with rst := S }

/-- The port `p` (R42). -/
def State.dev (s : State) (p : Nibble) : Device := s.devs[p.toNat]'p.isLt

/-- Replace one port. -/
def State.setDev (s : State) (p : Nibble) (d : Device) : State := { s with devs := s.devs.set p.toNat d p.isLt }

/-- The register `l` of a port (R42). -/
def Device.get (d : Device) (l : Nibble) : Byte := d.reg[l.toNat]'l.isLt

/-- Replace one register of a port. -/
def Device.put (d : Device) (l : Nibble) (v : Byte) : Device := { d with reg := d.reg.set l.toNat v l.isLt }

/-- The halt flag is set (R44): register HALT_OFFSET of HALT_PORT is not zero. -/
def State.halted (s : State) : Bool := (s.dev Params.haltPort).get Params.haltOffset != 0x00#8

/-! ## Micro-ops -/

/-- Why an instruction ends before its last micro-op: a raised fault (R150), or a refusal. -/
inductive Stop where
  | fault
  | refuse (r : Refusal)
  deriving DecidableEq, Repr

/-- A micro-op (R17, R19): it changes the state and completes with a value, or it ends the instruction, keeping what the
micro-ops before it did (R150). -/
abbrev MicroOp (α : Type) := EStateM Stop State α

/-- The routing, keep flag and width of one step (R147 to R149). -/
structure Ctx where
  src : StackId
  dst : StackId
  keep : Bool
  width : Width
  deriving DecidableEq, Repr

end Sys2Proof.Machine

namespace Sys2Proof

/-- The source stack of a mode (R147). -/
def Mode.src (m : Mode) : Machine.StackId := if m.ret then .ret else .working

/-- The destination stack of a mode (R147). -/
def Mode.dst (m : Mode) : Machine.StackId := if m.ret then .working else .ret

/-- Decode the mode flags of a step (R147 to R149). -/
def Mode.ctx (m : Mode) : Machine.Ctx := ⟨m.src, m.dst, m.keep, m.width⟩

end Sys2Proof

namespace Sys2Proof.Machine

/-- `raise K(S)` (R17, R150): record the fault in the stack and end the instruction. -/
def raise {α : Type} (i : StackId) (k : FaultKind) : MicroOp α := fun s =>
  .error .fault (s.setStack i { s.stack i with fault := some k })

/-- The current pc. -/
def getPc : MicroOp Short := fun s => .ok s.pc s

/-- `pc <- target` (R17). -/
def setPc (a : Short) : MicroOp Unit := fun s => .ok () { s with pc := a }

/-- Write `b` in the next free slot and advance the pointer (R78). -/
def Stack.push8 (S : Stack) (b : Byte) : Stack :=
  { S with dat := S.dat.set S.ptr.toNat b S.ptr.isLt, ptr := S.ptr + 1#8 }

/-- `Push8(S, b)` (R78). -/
def push8 (i : StackId) (b : Byte) : MicroOp Unit := fun s =>
  if (s.stack i).ptr = Params.stackDepth then raise i .overflow s
  else .ok () (s.setStack i ((s.stack i).push8 b))

/-- `Pop8(src)` (R79): in a keep-mode step through the kept pointer, else through the pointer. -/
def pop8 (c : Ctx) : MicroOp Byte := fun s =>
  let S := s.stack c.src
  if c.keep then
    if S.kptr = 0#8 then raise c.src .underflow s
    else .ok (S.dat[(S.kptr - 1#8).toNat]'(S.kptr - 1#8).isLt) (s.setStack c.src { S with kptr := S.kptr - 1#8 })
  else
    if S.ptr = 0#8 then raise c.src .underflow s
    else .ok (S.dat[(S.ptr - 1#8).toNat]'(S.ptr - 1#8).isLt) (s.setStack c.src { S with ptr := S.ptr - 1#8 })

/-- `Push(S, w, v)` (R80): a short's high byte first. A value of width 1 is pushed as its low byte, so every result is
taken mod 2^W here (log 14). -/
def push (i : StackId) (w : Width) (v : Short) : MicroOp Unit :=
  match w with
  | .byte => push8 i (loByte v)
  | .short => do
    push8 i (hiByte v)
    push8 i (loByte v)

/-- `Pop(src, w)` (R80): a short's low byte first. -/
def pop (c : Ctx) (w : Width) : MicroOp Short :=
  match w with
  | .byte => do
    let b ← pop8 c
    return zext8 b
  | .short => do
    let lo ← pop8 c
    let hi ← pop8 c
    return join hi lo

/-- `MemRead` as a micro-op; it cannot fail (R71). -/
def memRead (a : Short) (w : Width) : MicroOp Short := fun s => .ok (s.mem.read a w) s

/-- `MemWrite` as a micro-op; it cannot fail (R71). -/
def memWrite (a : Short) (w : Width) (v : Short) : MicroOp Unit := fun s =>
  .ok () { s with mem := s.mem.write a v w }

/-! ## Fault codes (spec/60_exceptions.md R290; the parameter FAULT codes of R12, the spec's decision D8; log 17) -/

/-- The number of a fault kind. -/
def FaultKind.code : FaultKind → Nat
  | .underflow => 1
  | .overflow => 2
  | .divideByZero => 3

/-- The number of a stack's identity. -/
def StackId.code : StackId → Nat
  | .working => 0
  | .ret => 1

/-- A fault field in numbers; D8 leaves 0 for no fault. -/
def faultCode (fault : Option FaultKind) : Nat := fault.elim 0 FaultKind.code

/-- A report in numbers, for a host that wants them: kind, stack, opcode byte, pc. -/
def FaultReport.codes (r : FaultReport) : Nat × Nat × Nat × Nat := (r.kind.code, r.stack.code, r.opcode.toNat, r.pc.toNat)

/-! ## Entering a fault, an evaluation, and leaving one -/

/-- FAULT ENTRY (R296, R297): the report holds pc as the step left it, is presented by being kept in `lastFault`
(log 15), the pc policy is applied, and EVALUATE returns false. -/
def takeFault (i : StackId) (k : FaultKind) (opcode : Byte) (s : State) : State :=
  { s with
    lastFault := some ⟨k, i, opcode, s.pc⟩
    pc := match s.pcPolicy with
      | .leave => s.pc
      | .zero => 0x0000#16
    running := false
    result := some false }

/-- The only way on after a fault (R300): an accepted EVALUATE. It starts at its vector, clamps the working stack
pointer (R142) and clears both fault fields (R143). -/
def enterEvaluation (vector : Short) (s : State) : State :=
  { s with
    pc := vector
    wst := { s.wst with
      ptr := if Params.wstEntryClamp < s.wst.ptr then Params.wstEntryClamp else s.wst.ptr
      fault := none }
    rst := { s.rst with fault := none }
    running := true
    result := none }

/-- EVALUATE (R140 to R143): refused at entry with answer false and no change of the block's state if the vector is 0 or
the halt flag is set (R141), else entered. -/
def evaluate (vector : Short) (s : State) : State :=
  if vector = 0x0000#16 ∨ s.halted then { s with result := some false }
  else enterEvaluation vector s

/-- The end of an evaluation by BRK (R146): EVALUATE returns true. -/
def endEvaluation (s : State) : State := { s with running := false, result := some true }

/-! ## The frame of one instruction -/

/-- The start of a keep-mode step loads the kept pointer of the source stack (R148). -/
def beginStep (c : Ctx) (s : State) : State :=
  if c.keep then s.setStack c.src { s.stack c.src with kptr := (s.stack c.src).ptr } else s

/-- The check after a step (R151): a fault on either stack aborts the evaluation, the working stack looked at first
(R295). -/
def settle (opcode : Byte) (s : State) : Host.Outcome State Fault Refusal :=
  match s.wst.fault with
  | some k => .next (takeFault .working k opcode s)
  | none =>
    match s.rst.fault with
    | some k => .next (takeFault .ret k opcode s)
    | none => .next s

/-- Run the body of an instruction (R147 to R151) with mode `m` and opcode index `op`, from the state after its opcode
byte was fetched. -/
def runOp (m : Mode) (op : BitVec 5) (body : Ctx → MicroOp Unit) (s : State) : Host.Outcome State Fault Refusal :=
  match body m.ctx (beginStep m.ctx s) with
  | .ok _ t => settle (m.opcodeByte op) t
  | .error .fault t => settle (m.opcodeByte op) t
  | .error (.refuse r) _ => .refused r

/-- The bytes a fetch can use (R145, R119): the opcode byte at pc and the two after it. -/
def fetchBytes (s : State) : List Byte := [s.mem.byte s.pc, s.mem.byte (s.pc + 1), s.mem.byte (s.pc + 2)]

end Sys2Proof.Machine
end

