-- ==== Sys2Proof/Machine/Operands.lean ====
section
/-! DEFINITION. Operand forms (spec/30_encoding.md R113, R119, R120): widths, jump targets, effective addresses, and the
way every instruction takes its operands from the source stack. -/

namespace Sys2Proof

/-- The bytes of a width, `w` of R15. -/
def Width.bytes : Width → Nat
  | .byte => 1
  | .short => 2

end Sys2Proof

namespace Sys2Proof.Machine

/-- A byte-mode literal as a value of width 1 (R119: zero-extended). -/
def byteLiteral (v : Byte) : Short := zext8 v

/-- `Target(t)` (R190): byte mode is relative to pc, the address after the opcode; short mode is absolute. -/
def target (w : Width) (pc t : Short) : Short :=
  match w with
  | .byte => pc + sext8 (loByte t)
  | .short => t

/-- The address of a zero-page operand (R120, R210): its byte, zero-extended. -/
def zeroPage (a : Short) : Short := zext8 (loByte a)

/-- The address of a relative operand (R120, R212): pc plus the signed byte offset. -/
def relative (pc o : Short) : Short := pc + sext8 (loByte o)

/-- Pop one operand of the step's width. -/
def popW (c : Ctx) : MicroOp Short := pop c c.width

/-- Push one result of the step's width on the source stack. -/
def pushW (c : Ctx) (v : Short) : MicroOp Unit := push c.src c.width v

/-- The shared shape of the binary operations (R231): pop `a`, pop `b`, push `b op a`. -/
def binary (f : Short → Short → Short) (c : Ctx) : MicroOp Unit := do
  let a ← popW c
  let b ← popW c
  pushW c (f b a)

end Sys2Proof.Machine
end

