-- ==== Sys2Proof/Machine/ArithFamily.lean ====
section
/-! DEFINITION. Arithmetic and bitwise (spec/44_arithmetic.md): ADD SUB MUL DIV AND ORA EOR SFT. Operands of width 1 are zero-extended and
results are taken mod 2^W by the push (R230; log 14). -/

namespace Sys2Proof.Machine

/-- The SFT result of value `v` and control `x` (R238), before the push takes it mod 2^W. -/
def shiftResult (v x : Short) : Short := (v >>> (x.extractLsb' 0 3).toNat) <<< (x.extractLsb' 4 3).toNat

/-- ADD (R232). `( b* a* -- (b+a)* )` -/
def addBody : Ctx → MicroOp Unit := binary fun b a => b + a

/-! The eight forms of ADD, opcode index 0x18. -/

def execAdd (s : State) : Host.Outcome State Fault Refusal := runOp ⟨false, false, false⟩ 0x18#5 addBody s
def execAddr (s : State) : Host.Outcome State Fault Refusal := runOp ⟨false, true, false⟩ 0x18#5 addBody s
def execAddk (s : State) : Host.Outcome State Fault Refusal := runOp ⟨true, false, false⟩ 0x18#5 addBody s
def execAddkr (s : State) : Host.Outcome State Fault Refusal := runOp ⟨true, true, false⟩ 0x18#5 addBody s
def execAdd2 (s : State) : Host.Outcome State Fault Refusal := runOp ⟨false, false, true⟩ 0x18#5 addBody s
def execAdd2r (s : State) : Host.Outcome State Fault Refusal := runOp ⟨false, true, true⟩ 0x18#5 addBody s
def execAdd2k (s : State) : Host.Outcome State Fault Refusal := runOp ⟨true, false, true⟩ 0x18#5 addBody s
def execAdd2kr (s : State) : Host.Outcome State Fault Refusal := runOp ⟨true, true, true⟩ 0x18#5 addBody s

/-- SUB (R233). `( b* a* -- (b-a)* )` -/
def subBody : Ctx → MicroOp Unit := binary fun b a => b - a

/-! The eight forms of SUB, opcode index 0x19. -/

def execSub (s : State) : Host.Outcome State Fault Refusal := runOp ⟨false, false, false⟩ 0x19#5 subBody s
def execSubr (s : State) : Host.Outcome State Fault Refusal := runOp ⟨false, true, false⟩ 0x19#5 subBody s
def execSubk (s : State) : Host.Outcome State Fault Refusal := runOp ⟨true, false, false⟩ 0x19#5 subBody s
def execSubkr (s : State) : Host.Outcome State Fault Refusal := runOp ⟨true, true, false⟩ 0x19#5 subBody s
def execSub2 (s : State) : Host.Outcome State Fault Refusal := runOp ⟨false, false, true⟩ 0x19#5 subBody s
def execSub2r (s : State) : Host.Outcome State Fault Refusal := runOp ⟨false, true, true⟩ 0x19#5 subBody s
def execSub2k (s : State) : Host.Outcome State Fault Refusal := runOp ⟨true, false, true⟩ 0x19#5 subBody s
def execSub2kr (s : State) : Host.Outcome State Fault Refusal := runOp ⟨true, true, true⟩ 0x19#5 subBody s

/-- MUL (R234). `( b* a* -- (b*a)* )`, the low half. -/
def mulBody : Ctx → MicroOp Unit := binary fun b a => b * a

/-! The eight forms of MUL, opcode index 0x1A. -/

def execMul (s : State) : Host.Outcome State Fault Refusal := runOp ⟨false, false, false⟩ 0x1A#5 mulBody s
def execMulr (s : State) : Host.Outcome State Fault Refusal := runOp ⟨false, true, false⟩ 0x1A#5 mulBody s
def execMulk (s : State) : Host.Outcome State Fault Refusal := runOp ⟨true, false, false⟩ 0x1A#5 mulBody s
def execMulkr (s : State) : Host.Outcome State Fault Refusal := runOp ⟨true, true, false⟩ 0x1A#5 mulBody s
def execMul2 (s : State) : Host.Outcome State Fault Refusal := runOp ⟨false, false, true⟩ 0x1A#5 mulBody s
def execMul2r (s : State) : Host.Outcome State Fault Refusal := runOp ⟨false, true, true⟩ 0x1A#5 mulBody s
def execMul2k (s : State) : Host.Outcome State Fault Refusal := runOp ⟨true, false, true⟩ 0x1A#5 mulBody s
def execMul2kr (s : State) : Host.Outcome State Fault Refusal := runOp ⟨true, true, true⟩ 0x1A#5 mulBody s

/-- DIV (R235). `( b* a* -- (b/a)* )`, unsigned floor; a zero divisor raises DivideByZero on src after both pops (R236). -/
def divBody (c : Ctx) : MicroOp Unit := do
  let a ← popW c
  let b ← popW c
  if a = 0#16 then raise c.src .divideByZero else pushW c (b / a)

/-! The eight forms of DIV, opcode index 0x1B. -/

def execDiv (s : State) : Host.Outcome State Fault Refusal := runOp ⟨false, false, false⟩ 0x1B#5 divBody s
def execDivr (s : State) : Host.Outcome State Fault Refusal := runOp ⟨false, true, false⟩ 0x1B#5 divBody s
def execDivk (s : State) : Host.Outcome State Fault Refusal := runOp ⟨true, false, false⟩ 0x1B#5 divBody s
def execDivkr (s : State) : Host.Outcome State Fault Refusal := runOp ⟨true, true, false⟩ 0x1B#5 divBody s
def execDiv2 (s : State) : Host.Outcome State Fault Refusal := runOp ⟨false, false, true⟩ 0x1B#5 divBody s
def execDiv2r (s : State) : Host.Outcome State Fault Refusal := runOp ⟨false, true, true⟩ 0x1B#5 divBody s
def execDiv2k (s : State) : Host.Outcome State Fault Refusal := runOp ⟨true, false, true⟩ 0x1B#5 divBody s
def execDiv2kr (s : State) : Host.Outcome State Fault Refusal := runOp ⟨true, true, true⟩ 0x1B#5 divBody s

/-- AND (R237). `( b* a* -- (b&a)* )` -/
def andBody : Ctx → MicroOp Unit := binary fun b a => b &&& a

/-! The eight forms of AND, opcode index 0x1C. -/

def execAnd (s : State) : Host.Outcome State Fault Refusal := runOp ⟨false, false, false⟩ 0x1C#5 andBody s
def execAndr (s : State) : Host.Outcome State Fault Refusal := runOp ⟨false, true, false⟩ 0x1C#5 andBody s
def execAndk (s : State) : Host.Outcome State Fault Refusal := runOp ⟨true, false, false⟩ 0x1C#5 andBody s
def execAndkr (s : State) : Host.Outcome State Fault Refusal := runOp ⟨true, true, false⟩ 0x1C#5 andBody s
def execAnd2 (s : State) : Host.Outcome State Fault Refusal := runOp ⟨false, false, true⟩ 0x1C#5 andBody s
def execAnd2r (s : State) : Host.Outcome State Fault Refusal := runOp ⟨false, true, true⟩ 0x1C#5 andBody s
def execAnd2k (s : State) : Host.Outcome State Fault Refusal := runOp ⟨true, false, true⟩ 0x1C#5 andBody s
def execAnd2kr (s : State) : Host.Outcome State Fault Refusal := runOp ⟨true, true, true⟩ 0x1C#5 andBody s

/-- ORA (R237). `( b* a* -- (b|a)* )` -/
def oraBody : Ctx → MicroOp Unit := binary fun b a => b ||| a

/-! The eight forms of ORA, opcode index 0x1D. -/

def execOra (s : State) : Host.Outcome State Fault Refusal := runOp ⟨false, false, false⟩ 0x1D#5 oraBody s
def execOrar (s : State) : Host.Outcome State Fault Refusal := runOp ⟨false, true, false⟩ 0x1D#5 oraBody s
def execOrak (s : State) : Host.Outcome State Fault Refusal := runOp ⟨true, false, false⟩ 0x1D#5 oraBody s
def execOrakr (s : State) : Host.Outcome State Fault Refusal := runOp ⟨true, true, false⟩ 0x1D#5 oraBody s
def execOra2 (s : State) : Host.Outcome State Fault Refusal := runOp ⟨false, false, true⟩ 0x1D#5 oraBody s
def execOra2r (s : State) : Host.Outcome State Fault Refusal := runOp ⟨false, true, true⟩ 0x1D#5 oraBody s
def execOra2k (s : State) : Host.Outcome State Fault Refusal := runOp ⟨true, false, true⟩ 0x1D#5 oraBody s
def execOra2kr (s : State) : Host.Outcome State Fault Refusal := runOp ⟨true, true, true⟩ 0x1D#5 oraBody s

/-- EOR (R237). `( b* a* -- (b^a)* )` -/
def eorBody : Ctx → MicroOp Unit := binary fun b a => b ^^^ a

/-! The eight forms of EOR, opcode index 0x1E. -/

def execEor (s : State) : Host.Outcome State Fault Refusal := runOp ⟨false, false, false⟩ 0x1E#5 eorBody s
def execEorr (s : State) : Host.Outcome State Fault Refusal := runOp ⟨false, true, false⟩ 0x1E#5 eorBody s
def execEork (s : State) : Host.Outcome State Fault Refusal := runOp ⟨true, false, false⟩ 0x1E#5 eorBody s
def execEorkr (s : State) : Host.Outcome State Fault Refusal := runOp ⟨true, true, false⟩ 0x1E#5 eorBody s
def execEor2 (s : State) : Host.Outcome State Fault Refusal := runOp ⟨false, false, true⟩ 0x1E#5 eorBody s
def execEor2r (s : State) : Host.Outcome State Fault Refusal := runOp ⟨false, true, true⟩ 0x1E#5 eorBody s
def execEor2k (s : State) : Host.Outcome State Fault Refusal := runOp ⟨true, false, true⟩ 0x1E#5 eorBody s
def execEor2kr (s : State) : Host.Outcome State Fault Refusal := runOp ⟨true, true, true⟩ 0x1E#5 eorBody s

/-- SFT (R238). `( v* x8 -- r* )`: right by `x[2:0]`, then left by `x[6:4]`; bits 3 and 7 of the control are ignored. -/
def sftBody (c : Ctx) : MicroOp Unit := do
  let x ← pop c .byte
  let v ← popW c
  pushW c (shiftResult v x)

/-! The eight forms of SFT, opcode index 0x1F. -/

def execSft (s : State) : Host.Outcome State Fault Refusal := runOp ⟨false, false, false⟩ 0x1F#5 sftBody s
def execSftr (s : State) : Host.Outcome State Fault Refusal := runOp ⟨false, true, false⟩ 0x1F#5 sftBody s
def execSftk (s : State) : Host.Outcome State Fault Refusal := runOp ⟨true, false, false⟩ 0x1F#5 sftBody s
def execSftkr (s : State) : Host.Outcome State Fault Refusal := runOp ⟨true, true, false⟩ 0x1F#5 sftBody s
def execSft2 (s : State) : Host.Outcome State Fault Refusal := runOp ⟨false, false, true⟩ 0x1F#5 sftBody s
def execSft2r (s : State) : Host.Outcome State Fault Refusal := runOp ⟨false, true, true⟩ 0x1F#5 sftBody s
def execSft2k (s : State) : Host.Outcome State Fault Refusal := runOp ⟨true, false, true⟩ 0x1F#5 sftBody s
def execSft2kr (s : State) : Host.Outcome State Fault Refusal := runOp ⟨true, true, true⟩ 0x1F#5 sftBody s

end Sys2Proof.Machine
end

