-- ==== Sys2Proof/Machine/Flags.lean ====
section
/-! DEFINITION. The block has no condition codes (spec/10_state.md R46): a comparison pushes a byte 0 or 1
(spec/42_logic_jump.md R191 to R194), and a condition is a popped byte (R196). -/

namespace Sys2Proof.Machine

/-- The byte a comparison pushes, as a value of width 1 (R46). -/
def flagByte (f : Bool) : Short := if f then 1#16 else 0#16

/-- A popped condition byte holds (R196). -/
def conditionHolds (c : Short) : Bool := c != 0#16

/-- The shared shape of the comparisons (R191): pop `a`, pop `b`, push the byte of `f b a` on the source stack. -/
def comparison (f : Short → Short → Bool) (c : Ctx) : MicroOp Unit := do
  let a ← popW c
  let b ← popW c
  push c.src .byte (flagByte (f b a))

end Sys2Proof.Machine
end

