-- ==== Sys2Proof/Machine/ControlFamily.lean ====
section
/-! DEFINITION. BRK (spec/40_evaluator.md R146), comparison and control transfer (spec/42_logic_jump.md): EQU NEQ GTH LTH JMP JNZ JSR STH. -/

namespace Sys2Proof.Machine

/-- BRK (R146): the evaluation ends with answer true; nothing is written beyond the fetch, and no fault field is
checked. -/
def execBrk (s : State) : Host.Outcome State Fault Refusal := .next (endEvaluation s)

/-- EQU (R191). `( b* a* -- f8 )`, `f = 1` if `b = a`. -/
def equBody : Ctx → MicroOp Unit := comparison fun b a => b == a

/-! The eight forms of EQU, opcode index 0x08. -/

def execEqu (s : State) : Host.Outcome State Fault Refusal := runOp ⟨false, false, false⟩ 0x08#5 equBody s
def execEqur (s : State) : Host.Outcome State Fault Refusal := runOp ⟨false, true, false⟩ 0x08#5 equBody s
def execEquk (s : State) : Host.Outcome State Fault Refusal := runOp ⟨true, false, false⟩ 0x08#5 equBody s
def execEqukr (s : State) : Host.Outcome State Fault Refusal := runOp ⟨true, true, false⟩ 0x08#5 equBody s
def execEqu2 (s : State) : Host.Outcome State Fault Refusal := runOp ⟨false, false, true⟩ 0x08#5 equBody s
def execEqu2r (s : State) : Host.Outcome State Fault Refusal := runOp ⟨false, true, true⟩ 0x08#5 equBody s
def execEqu2k (s : State) : Host.Outcome State Fault Refusal := runOp ⟨true, false, true⟩ 0x08#5 equBody s
def execEqu2kr (s : State) : Host.Outcome State Fault Refusal := runOp ⟨true, true, true⟩ 0x08#5 equBody s

/-- NEQ (R192). `( b* a* -- f8 )`, `f = 1` if `b != a`. -/
def neqBody : Ctx → MicroOp Unit := comparison fun b a => b != a

/-! The eight forms of NEQ, opcode index 0x09. -/

def execNeq (s : State) : Host.Outcome State Fault Refusal := runOp ⟨false, false, false⟩ 0x09#5 neqBody s
def execNeqr (s : State) : Host.Outcome State Fault Refusal := runOp ⟨false, true, false⟩ 0x09#5 neqBody s
def execNeqk (s : State) : Host.Outcome State Fault Refusal := runOp ⟨true, false, false⟩ 0x09#5 neqBody s
def execNeqkr (s : State) : Host.Outcome State Fault Refusal := runOp ⟨true, true, false⟩ 0x09#5 neqBody s
def execNeq2 (s : State) : Host.Outcome State Fault Refusal := runOp ⟨false, false, true⟩ 0x09#5 neqBody s
def execNeq2r (s : State) : Host.Outcome State Fault Refusal := runOp ⟨false, true, true⟩ 0x09#5 neqBody s
def execNeq2k (s : State) : Host.Outcome State Fault Refusal := runOp ⟨true, false, true⟩ 0x09#5 neqBody s
def execNeq2kr (s : State) : Host.Outcome State Fault Refusal := runOp ⟨true, true, true⟩ 0x09#5 neqBody s

/-- GTH (R193). `( b* a* -- f8 )`, `f = 1` if `b > a`, unsigned. -/
def gthBody : Ctx → MicroOp Unit := comparison fun b a => decide (a < b)

/-! The eight forms of GTH, opcode index 0x0A. -/

def execGth (s : State) : Host.Outcome State Fault Refusal := runOp ⟨false, false, false⟩ 0x0A#5 gthBody s
def execGthr (s : State) : Host.Outcome State Fault Refusal := runOp ⟨false, true, false⟩ 0x0A#5 gthBody s
def execGthk (s : State) : Host.Outcome State Fault Refusal := runOp ⟨true, false, false⟩ 0x0A#5 gthBody s
def execGthkr (s : State) : Host.Outcome State Fault Refusal := runOp ⟨true, true, false⟩ 0x0A#5 gthBody s
def execGth2 (s : State) : Host.Outcome State Fault Refusal := runOp ⟨false, false, true⟩ 0x0A#5 gthBody s
def execGth2r (s : State) : Host.Outcome State Fault Refusal := runOp ⟨false, true, true⟩ 0x0A#5 gthBody s
def execGth2k (s : State) : Host.Outcome State Fault Refusal := runOp ⟨true, false, true⟩ 0x0A#5 gthBody s
def execGth2kr (s : State) : Host.Outcome State Fault Refusal := runOp ⟨true, true, true⟩ 0x0A#5 gthBody s

/-- LTH (R194). `( b* a* -- f8 )`, `f = 1` if `b < a`, unsigned. -/
def lthBody : Ctx → MicroOp Unit := comparison fun b a => decide (b < a)

/-! The eight forms of LTH, opcode index 0x0B. -/

def execLth (s : State) : Host.Outcome State Fault Refusal := runOp ⟨false, false, false⟩ 0x0B#5 lthBody s
def execLthr (s : State) : Host.Outcome State Fault Refusal := runOp ⟨false, true, false⟩ 0x0B#5 lthBody s
def execLthk (s : State) : Host.Outcome State Fault Refusal := runOp ⟨true, false, false⟩ 0x0B#5 lthBody s
def execLthkr (s : State) : Host.Outcome State Fault Refusal := runOp ⟨true, true, false⟩ 0x0B#5 lthBody s
def execLth2 (s : State) : Host.Outcome State Fault Refusal := runOp ⟨false, false, true⟩ 0x0B#5 lthBody s
def execLth2r (s : State) : Host.Outcome State Fault Refusal := runOp ⟨false, true, true⟩ 0x0B#5 lthBody s
def execLth2k (s : State) : Host.Outcome State Fault Refusal := runOp ⟨true, false, true⟩ 0x0B#5 lthBody s
def execLth2kr (s : State) : Host.Outcome State Fault Refusal := runOp ⟨true, true, true⟩ 0x0B#5 lthBody s

/-- JMP (R195). `( t* -- )`; pc goes to `Target(t)` (R190). -/
def jmpBody (c : Ctx) : MicroOp Unit := do
  let t ← popW c
  let pc ← getPc
  setPc (target c.width pc t)

/-! The eight forms of JMP, opcode index 0x0C. -/

def execJmp (s : State) : Host.Outcome State Fault Refusal := runOp ⟨false, false, false⟩ 0x0C#5 jmpBody s
def execJmpr (s : State) : Host.Outcome State Fault Refusal := runOp ⟨false, true, false⟩ 0x0C#5 jmpBody s
def execJmpk (s : State) : Host.Outcome State Fault Refusal := runOp ⟨true, false, false⟩ 0x0C#5 jmpBody s
def execJmpkr (s : State) : Host.Outcome State Fault Refusal := runOp ⟨true, true, false⟩ 0x0C#5 jmpBody s
def execJmp2 (s : State) : Host.Outcome State Fault Refusal := runOp ⟨false, false, true⟩ 0x0C#5 jmpBody s
def execJmp2r (s : State) : Host.Outcome State Fault Refusal := runOp ⟨false, true, true⟩ 0x0C#5 jmpBody s
def execJmp2k (s : State) : Host.Outcome State Fault Refusal := runOp ⟨true, false, true⟩ 0x0C#5 jmpBody s
def execJmp2kr (s : State) : Host.Outcome State Fault Refusal := runOp ⟨true, true, true⟩ 0x0C#5 jmpBody s

/-- JNZ (R196). `( c8 t* -- )`; the jump is taken if the condition byte is not zero. -/
def jnzBody (c : Ctx) : MicroOp Unit := do
  let t ← popW c
  let f ← pop c .byte
  let pc ← getPc
  if conditionHolds f then setPc (target c.width pc t) else return ()

/-! The eight forms of JNZ, opcode index 0x0D. -/

def execJnz (s : State) : Host.Outcome State Fault Refusal := runOp ⟨false, false, false⟩ 0x0D#5 jnzBody s
def execJnzr (s : State) : Host.Outcome State Fault Refusal := runOp ⟨false, true, false⟩ 0x0D#5 jnzBody s
def execJnzk (s : State) : Host.Outcome State Fault Refusal := runOp ⟨true, false, false⟩ 0x0D#5 jnzBody s
def execJnzkr (s : State) : Host.Outcome State Fault Refusal := runOp ⟨true, true, false⟩ 0x0D#5 jnzBody s
def execJnz2 (s : State) : Host.Outcome State Fault Refusal := runOp ⟨false, false, true⟩ 0x0D#5 jnzBody s
def execJnz2r (s : State) : Host.Outcome State Fault Refusal := runOp ⟨false, true, true⟩ 0x0D#5 jnzBody s
def execJnz2k (s : State) : Host.Outcome State Fault Refusal := runOp ⟨true, false, true⟩ 0x0D#5 jnzBody s
def execJnz2kr (s : State) : Host.Outcome State Fault Refusal := runOp ⟨true, true, true⟩ 0x0D#5 jnzBody s

/-- JSR (R197). `( t* -- )` on src, `( -- ret16 )` on dst: the link is the pc after the opcode, a short in both widths. -/
def jsrBody (c : Ctx) : MicroOp Unit := do
  let t ← popW c
  let pc ← getPc
  push c.dst .short pc
  setPc (target c.width pc t)

/-! The eight forms of JSR, opcode index 0x0E. -/

def execJsr (s : State) : Host.Outcome State Fault Refusal := runOp ⟨false, false, false⟩ 0x0E#5 jsrBody s
def execJsrr (s : State) : Host.Outcome State Fault Refusal := runOp ⟨false, true, false⟩ 0x0E#5 jsrBody s
def execJsrk (s : State) : Host.Outcome State Fault Refusal := runOp ⟨true, false, false⟩ 0x0E#5 jsrBody s
def execJsrkr (s : State) : Host.Outcome State Fault Refusal := runOp ⟨true, true, false⟩ 0x0E#5 jsrBody s
def execJsr2 (s : State) : Host.Outcome State Fault Refusal := runOp ⟨false, false, true⟩ 0x0E#5 jsrBody s
def execJsr2r (s : State) : Host.Outcome State Fault Refusal := runOp ⟨false, true, true⟩ 0x0E#5 jsrBody s
def execJsr2k (s : State) : Host.Outcome State Fault Refusal := runOp ⟨true, false, true⟩ 0x0E#5 jsrBody s
def execJsr2kr (s : State) : Host.Outcome State Fault Refusal := runOp ⟨true, true, true⟩ 0x0E#5 jsrBody s

/-- STH (R198). `( a* -- )` on src, `( -- a* )` on dst. -/
def sthBody (c : Ctx) : MicroOp Unit := do
  let a ← popW c
  push c.dst c.width a

/-! The eight forms of STH, opcode index 0x0F. -/

def execSth (s : State) : Host.Outcome State Fault Refusal := runOp ⟨false, false, false⟩ 0x0F#5 sthBody s
def execSthr (s : State) : Host.Outcome State Fault Refusal := runOp ⟨false, true, false⟩ 0x0F#5 sthBody s
def execSthk (s : State) : Host.Outcome State Fault Refusal := runOp ⟨true, false, false⟩ 0x0F#5 sthBody s
def execSthkr (s : State) : Host.Outcome State Fault Refusal := runOp ⟨true, true, false⟩ 0x0F#5 sthBody s
def execSth2 (s : State) : Host.Outcome State Fault Refusal := runOp ⟨false, false, true⟩ 0x0F#5 sthBody s
def execSth2r (s : State) : Host.Outcome State Fault Refusal := runOp ⟨false, true, true⟩ 0x0F#5 sthBody s
def execSth2k (s : State) : Host.Outcome State Fault Refusal := runOp ⟨true, false, true⟩ 0x0F#5 sthBody s
def execSth2kr (s : State) : Host.Outcome State Fault Refusal := runOp ⟨true, true, true⟩ 0x0F#5 sthBody s

end Sys2Proof.Machine
end

