-- ==== Sys2Proof/Machine/Ppu.lean ====
section
/-! DEFINITION. The pixel device (spec/45_pixel_device.md): layout, operations, sprite blits. No operation faults
(R275), and none touches anything but the pixel device (R11). -/

namespace Sys2Proof.Machine

/-- The shift of a layer inside a pixel's nibble (R251): background in bits 1:0, foreground in bits 3:2. -/
def layerShift : Layer → Nat
  | .bg => 0
  | .fg => 2

/-- `ceil(width / PPW)` (R51, R255). -/
def strideFor (width : Short) : PixelWord :=
  BitVec.ofNat 32 ((width.toNat + (Params.pixelsPerWord - 1)) / Params.pixelsPerWord)

/-- The number of words of the framebuffer, `stride * height` (R52). -/
def Ppu.words (p : Ppu) : Nat := p.stride.toNat * p.height.toNat

/-- The word `pixels[i]`. -/
def Ppu.word (p : Ppu) (i : Nat) : PixelWord := Cells.read i p.pixels

/-- `index(x, y)` (R251). -/
def Ppu.index (p : Ppu) (x y : Short) : Nat := y.toNat * p.stride.toNat + x.toNat / Params.pixelsPerWord

/-- `n(x)`, the offset of a pixel's nibble in its word (R251). -/
def pixelShift (x : Short) : Nat := 4 * (x.toNat % Params.pixelsPerWord)

/-- The coordinates lie in the framebuffer (R252, R254). -/
def Ppu.inBounds (p : Ppu) (x y : Short) : Bool := decide (x < p.width) && decide (y < p.height)

/-- `nibble(x, y)`, both layers of a pixel (R251, R253). -/
def Ppu.nibbleAt (p : Ppu) (x y : Short) : Nibble := (p.word (p.index x y)).extractLsb' (pixelShift x) 4

/-- A word with the 2-bit field at `shift` replaced (R252). -/
def replaceField (old : PixelWord) (shift : Nat) (color : Colour) : PixelWord :=
  (old &&& ~~~(3#32 <<< shift)) ||| (color.setWidth 32 <<< shift)

/-- Store a word and, if it differs from before, set `redraw` and widen the dirty range (R252, R258). -/
def Ppu.storeWord (p : Ppu) (i : Nat) (new : PixelWord) : Ppu :=
  if new = p.word i then p
  else
    { p with
      pixels := Cells.write i new p.pixels
      redraw := true
      dirtyLo := if BitVec.ofNat 32 i < p.dirtyLo then BitVec.ofNat 32 i else p.dirtyLo
      dirtyHi := if p.dirtyHi < BitVec.ofNat 32 i then BitVec.ofNat 32 i else p.dirtyHi }

/-- `write(layer, x, y, color)` (R252): an out-of-bounds write is dropped. -/
def Ppu.write (p : Ppu) (layer : Layer) (x y : Short) (color : Colour) : Ppu :=
  if p.inBounds x y then
    p.storeWord (p.index x y) (replaceField (p.word (p.index x y)) (pixelShift x + layerShift layer) color)
  else p

/-- `resize(width, height)` (R255): clear the framebuffer, mark all of it for redraw. -/
def Ppu.resize (p : Ppu) (width height : Short) : Ppu :=
  let words := (strideFor width).toNat * height.toNat
  { p with
    width := width
    height := height
    stride := strideFor width
    pixels := []
    redraw := true
    dirtyLo := if words > 0 then 0#32 else Params.dirtyEmptyLo
    dirtyHi := if words > 0 then BitVec.ofNat 32 (words - 1) else 0#32 }

/-- `frame_reset()` (R256). -/
def Ppu.frameReset (p : Ppu) : Ppu := { p with redraw := false, dirtyLo := Params.dirtyEmptyLo, dirtyHi := 0#32 }

/-- The target coordinate of a source row or column (R266, R268). -/
def spriteCoord (base : Short) (flip : Bool) (k : Nat) : Short := base + BitVec.ofNat 16 (if flip then 7 - k else k)

/-- Write one source pixel of channel `ch` at source row `v` and column `h`, unless it is transparent (R264, R265,
R269). -/
def Ppu.plot (p : Ppu) (q : Sprite) (ch : Colour) (v h : Nat) : Ppu :=
  if ch ≠ 0#2 ∨ Params.opaqueColour q.color then
    p.write q.layer (spriteCoord q.x q.flipx h) (spriteCoord q.y q.flipy v) (Params.blend ch q.color)
  else p

/-- Blit the 64 source pixels whose channels are `ch v h`, row by row (R264, R265). -/
def Ppu.blit (p : Ppu) (q : Sprite) (ch : Nat → Nat → Colour) : Ppu :=
  (List.range 8).foldl (fun p v => (List.range 8).foldl (fun p h => p.plot q (ch v h) v h) p) p

/-- The pixel of column `h` in a sprite row byte: bit 7 is the leftmost (R267). -/
def rowPixel (row : Byte) (h : Nat) : Bool := row.getLsbD (7 - h)

/-- The channel of a 1-bit source pixel (R264, R270). -/
def channel1 (m : Memory) (addr : Short) (v h : Nat) : Colour :=
  if rowPixel (m.byte (addr + BitVec.ofNat 16 v)) h then 1#2 else 0#2

/-- The channel of a 2-bit source pixel (R265, R270): the low plane's bit plus twice the high plane's. -/
def channel2 (m : Memory) (addr : Short) (v h : Nat) : Colour :=
  BitVec.ofBool (rowPixel (m.byte (addr + 8#16 + BitVec.ofNat 16 v)) h) ++
    BitVec.ofBool (rowPixel (m.byte (addr + BitVec.ofNat 16 v)) h)

/-- `blit1` (R264). -/
def Ppu.blit1 (p : Ppu) (m : Memory) (q : Sprite) : Ppu := p.blit q (channel1 m q.addr)

/-- `blit2` (R265). -/
def Ppu.blit2 (p : Ppu) (m : Memory) (q : Sprite) : Ppu := p.blit q (channel2 m q.addr)

/-- What an operation leaves of the pixel device (R10); sprites are read from memory (R270). -/
def Ppu.run (p : Ppu) (m : Memory) : PpuCmd → Ppu
  | .read _ _ => p
  | .write layer x y color => p.write layer x y color
  | .resize width height => p.resize width height
  | .frameReset => p.frameReset
  | .blit1 q => p.blit1 m q
  | .blit2 q => p.blit2 m q

/-- A pixel-device operation issued by a device body (R273, R310). -/
def State.runPpu (s : State) (c : PpuCmd) : State := { s with ppu := s.ppu.run s.mem c }

/-- `read(x, y)` issued by the host's renderer (R253, R272); out of bounds its result is a free value (R254; log 6). -/
def State.readPixel (s : State) (x y : Short) : State :=
  if s.ppu.inBounds x y then { s with nibble := some (s.ppu.nibbleAt x y) }
  else { s with nibble := some (Config.freeNibble s.draws), draws := s.draws + 1 }

end Sys2Proof.Machine
end

