-- ==== Sys2Proof/Machine/Bus.lean ====
section
/-! DEFINITION. The device bus (spec/20_memory.md R83 to R89) and the device bodies behind it, as oracles
(spec/60_exceptions.md R310; log 3 to 5). -/

namespace Sys2Proof.Machine

/-- One effect of the body of port `p` (R310). A body's register write is no bus write: it calls no `talk` and no vector
convention. -/
def State.act (p : Nibble) (s : State) : TalkAction → State
  | .setReg l v => s.setDev p ((s.dev p).put l v)
  | .setVector v => s.setDev p { s.dev p with vector := v }
  | .memWrite a v => { s with mem := s.mem.setByte a v }
  | .ppu c => s.runPpu c

/-- The effects of a body's reply, in order (R93). -/
def State.actAll (p : Nibble) (s : State) (acts : List TalkAction) : State := acts.foldl (State.act p) s

/-- The state after `talk(p, l, isWrite)` of a body that returns (R310): a no-op port does nothing (R89); else the next
listed reply, or the free value where none is listed (log 3). -/
def State.afterTalk (p l : Nibble) (isWrite : Bool) (s : State) : State :=
  if Params.noopPort p then s
  else
    match s.talkIn with
    | .returns acts :: rest => State.actAll p { s with talkIn := rest, draws := s.draws + 1 } acts
    | .evaluates _ :: rest => { s with talkIn := rest, draws := s.draws + 1 }
    | [] => State.actAll p { s with draws := s.draws + 1 } (Config.talkReply s p l isWrite)

/-- The body of port `p` would answer its next `talk` with EVALUATE (R157). -/
def State.talkReenters (p : Nibble) (s : State) : Bool :=
  !Params.noopPort p &&
    match s.talkIn with
    | .evaluates _ :: _ => true
    | _ => false

/-- `talk(p, l, isWrite)` (R9, R17): refused if the body issues EVALUATE (R157). -/
def talk (p l : Nibble) (isWrite : Bool) : MicroOp Unit := fun s =>
  if s.talkReenters p then .error (.refuse .reentrantEvaluate) s else .ok () (s.afterTalk p l isWrite)

/-- The store of a bus write: the register, and for local register 1 the port's vector from registers 0 and 1 (R86,
R87). -/
def Device.busWrite (d : Device) (l : Nibble) (v : Byte) : Device :=
  let d' := d.put l v
  if l = 1#4 then { d' with vector := join (d'.get 0#4) (d'.get 1#4) } else d'

/-- The register `l` of port `p` as it is now. -/
def readReg (p l : Nibble) : MicroOp Byte := fun s => .ok ((s.dev p).get l) s

/-- The store of a bus write to port `p`. -/
def storeReg (p l : Nibble) (v : Byte) : MicroOp Unit := fun s => .ok () (s.setDev p ((s.dev p).busWrite l v))

/-- `device_read(p, l)` (R85): the body first, then the register. -/
def deviceRead (p l : Nibble) : MicroOp Byte := do
  talk p l false
  readReg p l

/-- `device_write(p, l, v)` (R86): the store first, then the body. -/
def deviceWrite (p l : Nibble) (v : Byte) : MicroOp Unit := do
  storeReg p l v
  talk p l true

/-- `DevRead(a, w)` (R88): both bytes in port `a[7:4]`, the second at local `(l + 1) mod 16`. -/
def devRead (a : Byte) (w : Width) : MicroOp Short :=
  match w with
  | .byte => do
    let v ← deviceRead (portOf a) (localOf a)
    return zext8 v
  | .short => do
    let hi ← deviceRead (portOf a) (localOf a)
    let lo ← deviceRead (portOf a) (localOf a + 1#4)
    return join hi lo

/-- `DevWrite(a, w, v)` (R88): high byte first. -/
def devWrite (a : Byte) (w : Width) (v : Short) : MicroOp Unit :=
  match w with
  | .byte => deviceWrite (portOf a) (localOf a) (loByte v)
  | .short => do
    deviceWrite (portOf a) (localOf a) (hiByte v)
    deviceWrite (portOf a) (localOf a + 1#4) (loByte v)

end Sys2Proof.Machine
end

