-- ==== Sys2Proof/Machine/MemoryFamily.lean ====
section
/-! DEFINITION. Memory and device access (spec/43_memory_device.md): LDZ STZ LDR STR LDA STA DEI DEO. -/

namespace Sys2Proof.Machine

/-- LDZ (R210). `( a8 -- v* )`, a zero-page address. -/
def ldzBody (c : Ctx) : MicroOp Unit := do
  let a ← pop c .byte
  let v ← memRead (zeroPage a) c.width
  pushW c v

/-! The eight forms of LDZ, opcode index 0x10. -/

def execLdz (s : State) : Host.Outcome State Fault Refusal := runOp ⟨false, false, false⟩ 0x10#5 ldzBody s
def execLdzr (s : State) : Host.Outcome State Fault Refusal := runOp ⟨false, true, false⟩ 0x10#5 ldzBody s
def execLdzk (s : State) : Host.Outcome State Fault Refusal := runOp ⟨true, false, false⟩ 0x10#5 ldzBody s
def execLdzkr (s : State) : Host.Outcome State Fault Refusal := runOp ⟨true, true, false⟩ 0x10#5 ldzBody s
def execLdz2 (s : State) : Host.Outcome State Fault Refusal := runOp ⟨false, false, true⟩ 0x10#5 ldzBody s
def execLdz2r (s : State) : Host.Outcome State Fault Refusal := runOp ⟨false, true, true⟩ 0x10#5 ldzBody s
def execLdz2k (s : State) : Host.Outcome State Fault Refusal := runOp ⟨true, false, true⟩ 0x10#5 ldzBody s
def execLdz2kr (s : State) : Host.Outcome State Fault Refusal := runOp ⟨true, true, true⟩ 0x10#5 ldzBody s

/-- STZ (R211). `( v* a8 -- )`. -/
def stzBody (c : Ctx) : MicroOp Unit := do
  let a ← pop c .byte
  let v ← popW c
  memWrite (zeroPage a) c.width v

/-! The eight forms of STZ, opcode index 0x11. -/

def execStz (s : State) : Host.Outcome State Fault Refusal := runOp ⟨false, false, false⟩ 0x11#5 stzBody s
def execStzr (s : State) : Host.Outcome State Fault Refusal := runOp ⟨false, true, false⟩ 0x11#5 stzBody s
def execStzk (s : State) : Host.Outcome State Fault Refusal := runOp ⟨true, false, false⟩ 0x11#5 stzBody s
def execStzkr (s : State) : Host.Outcome State Fault Refusal := runOp ⟨true, true, false⟩ 0x11#5 stzBody s
def execStz2 (s : State) : Host.Outcome State Fault Refusal := runOp ⟨false, false, true⟩ 0x11#5 stzBody s
def execStz2r (s : State) : Host.Outcome State Fault Refusal := runOp ⟨false, true, true⟩ 0x11#5 stzBody s
def execStz2k (s : State) : Host.Outcome State Fault Refusal := runOp ⟨true, false, true⟩ 0x11#5 stzBody s
def execStz2kr (s : State) : Host.Outcome State Fault Refusal := runOp ⟨true, true, true⟩ 0x11#5 stzBody s

/-- LDR (R212). `( o8 -- v* )`, relative to the pc after the opcode. -/
def ldrBody (c : Ctx) : MicroOp Unit := do
  let o ← pop c .byte
  let pc ← getPc
  let v ← memRead (relative pc o) c.width
  pushW c v

/-! The eight forms of LDR, opcode index 0x12. -/

def execLdr (s : State) : Host.Outcome State Fault Refusal := runOp ⟨false, false, false⟩ 0x12#5 ldrBody s
def execLdrr (s : State) : Host.Outcome State Fault Refusal := runOp ⟨false, true, false⟩ 0x12#5 ldrBody s
def execLdrk (s : State) : Host.Outcome State Fault Refusal := runOp ⟨true, false, false⟩ 0x12#5 ldrBody s
def execLdrkr (s : State) : Host.Outcome State Fault Refusal := runOp ⟨true, true, false⟩ 0x12#5 ldrBody s
def execLdr2 (s : State) : Host.Outcome State Fault Refusal := runOp ⟨false, false, true⟩ 0x12#5 ldrBody s
def execLdr2r (s : State) : Host.Outcome State Fault Refusal := runOp ⟨false, true, true⟩ 0x12#5 ldrBody s
def execLdr2k (s : State) : Host.Outcome State Fault Refusal := runOp ⟨true, false, true⟩ 0x12#5 ldrBody s
def execLdr2kr (s : State) : Host.Outcome State Fault Refusal := runOp ⟨true, true, true⟩ 0x12#5 ldrBody s

/-- STR (R213). `( v* o8 -- )`. -/
def strBody (c : Ctx) : MicroOp Unit := do
  let o ← pop c .byte
  let v ← popW c
  let pc ← getPc
  memWrite (relative pc o) c.width v

/-! The eight forms of STR, opcode index 0x13. -/

def execStr (s : State) : Host.Outcome State Fault Refusal := runOp ⟨false, false, false⟩ 0x13#5 strBody s
def execStrr (s : State) : Host.Outcome State Fault Refusal := runOp ⟨false, true, false⟩ 0x13#5 strBody s
def execStrk (s : State) : Host.Outcome State Fault Refusal := runOp ⟨true, false, false⟩ 0x13#5 strBody s
def execStrkr (s : State) : Host.Outcome State Fault Refusal := runOp ⟨true, true, false⟩ 0x13#5 strBody s
def execStr2 (s : State) : Host.Outcome State Fault Refusal := runOp ⟨false, false, true⟩ 0x13#5 strBody s
def execStr2r (s : State) : Host.Outcome State Fault Refusal := runOp ⟨false, true, true⟩ 0x13#5 strBody s
def execStr2k (s : State) : Host.Outcome State Fault Refusal := runOp ⟨true, false, true⟩ 0x13#5 strBody s
def execStr2kr (s : State) : Host.Outcome State Fault Refusal := runOp ⟨true, true, true⟩ 0x13#5 strBody s

/-- LDA (R214). `( a16 -- v* )`, an absolute address. -/
def ldaBody (c : Ctx) : MicroOp Unit := do
  let a ← pop c .short
  let v ← memRead a c.width
  pushW c v

/-! The eight forms of LDA, opcode index 0x14. -/

def execLda (s : State) : Host.Outcome State Fault Refusal := runOp ⟨false, false, false⟩ 0x14#5 ldaBody s
def execLdar (s : State) : Host.Outcome State Fault Refusal := runOp ⟨false, true, false⟩ 0x14#5 ldaBody s
def execLdak (s : State) : Host.Outcome State Fault Refusal := runOp ⟨true, false, false⟩ 0x14#5 ldaBody s
def execLdakr (s : State) : Host.Outcome State Fault Refusal := runOp ⟨true, true, false⟩ 0x14#5 ldaBody s
def execLda2 (s : State) : Host.Outcome State Fault Refusal := runOp ⟨false, false, true⟩ 0x14#5 ldaBody s
def execLda2r (s : State) : Host.Outcome State Fault Refusal := runOp ⟨false, true, true⟩ 0x14#5 ldaBody s
def execLda2k (s : State) : Host.Outcome State Fault Refusal := runOp ⟨true, false, true⟩ 0x14#5 ldaBody s
def execLda2kr (s : State) : Host.Outcome State Fault Refusal := runOp ⟨true, true, true⟩ 0x14#5 ldaBody s

/-- STA (R215). `( v* a16 -- )`. -/
def staBody (c : Ctx) : MicroOp Unit := do
  let a ← pop c .short
  let v ← popW c
  memWrite a c.width v

/-! The eight forms of STA, opcode index 0x15. -/

def execSta (s : State) : Host.Outcome State Fault Refusal := runOp ⟨false, false, false⟩ 0x15#5 staBody s
def execStar (s : State) : Host.Outcome State Fault Refusal := runOp ⟨false, true, false⟩ 0x15#5 staBody s
def execStak (s : State) : Host.Outcome State Fault Refusal := runOp ⟨true, false, false⟩ 0x15#5 staBody s
def execStakr (s : State) : Host.Outcome State Fault Refusal := runOp ⟨true, true, false⟩ 0x15#5 staBody s
def execSta2 (s : State) : Host.Outcome State Fault Refusal := runOp ⟨false, false, true⟩ 0x15#5 staBody s
def execSta2r (s : State) : Host.Outcome State Fault Refusal := runOp ⟨false, true, true⟩ 0x15#5 staBody s
def execSta2k (s : State) : Host.Outcome State Fault Refusal := runOp ⟨true, false, true⟩ 0x15#5 staBody s
def execSta2kr (s : State) : Host.Outcome State Fault Refusal := runOp ⟨true, true, true⟩ 0x15#5 staBody s

/-- DEI (R216). `( d8 -- v* )`: the bus read, with one `talk` before each byte. -/
def deiBody (c : Ctx) : MicroOp Unit := do
  let d ← pop c .byte
  let v ← devRead (loByte d) c.width
  pushW c v

/-! The eight forms of DEI, opcode index 0x16. -/

def execDei (s : State) : Host.Outcome State Fault Refusal := runOp ⟨false, false, false⟩ 0x16#5 deiBody s
def execDeir (s : State) : Host.Outcome State Fault Refusal := runOp ⟨false, true, false⟩ 0x16#5 deiBody s
def execDeik (s : State) : Host.Outcome State Fault Refusal := runOp ⟨true, false, false⟩ 0x16#5 deiBody s
def execDeikr (s : State) : Host.Outcome State Fault Refusal := runOp ⟨true, true, false⟩ 0x16#5 deiBody s
def execDei2 (s : State) : Host.Outcome State Fault Refusal := runOp ⟨false, false, true⟩ 0x16#5 deiBody s
def execDei2r (s : State) : Host.Outcome State Fault Refusal := runOp ⟨false, true, true⟩ 0x16#5 deiBody s
def execDei2k (s : State) : Host.Outcome State Fault Refusal := runOp ⟨true, false, true⟩ 0x16#5 deiBody s
def execDei2kr (s : State) : Host.Outcome State Fault Refusal := runOp ⟨true, true, true⟩ 0x16#5 deiBody s

/-- DEO (R217). `( v* d8 -- )`: the bus write, with one `talk` after each byte. -/
def deoBody (c : Ctx) : MicroOp Unit := do
  let d ← pop c .byte
  let v ← popW c
  devWrite (loByte d) c.width v

/-! The eight forms of DEO, opcode index 0x17. -/

def execDeo (s : State) : Host.Outcome State Fault Refusal := runOp ⟨false, false, false⟩ 0x17#5 deoBody s
def execDeor (s : State) : Host.Outcome State Fault Refusal := runOp ⟨false, true, false⟩ 0x17#5 deoBody s
def execDeok (s : State) : Host.Outcome State Fault Refusal := runOp ⟨true, false, false⟩ 0x17#5 deoBody s
def execDeokr (s : State) : Host.Outcome State Fault Refusal := runOp ⟨true, true, false⟩ 0x17#5 deoBody s
def execDeo2 (s : State) : Host.Outcome State Fault Refusal := runOp ⟨false, false, true⟩ 0x17#5 deoBody s
def execDeo2r (s : State) : Host.Outcome State Fault Refusal := runOp ⟨false, true, true⟩ 0x17#5 deoBody s
def execDeo2k (s : State) : Host.Outcome State Fault Refusal := runOp ⟨true, false, true⟩ 0x17#5 deoBody s
def execDeo2kr (s : State) : Host.Outcome State Fault Refusal := runOp ⟨true, true, true⟩ 0x17#5 deoBody s

end Sys2Proof.Machine
end

