-- ==== Sys2Proof/Machine/StackFamily.lean ====
section
/-! DEFINITION. Stack manipulation (spec/41_stack.md): LIT INC POP DUP NIP SWP OVR ROT. In the stack effects the top is rightmost. -/

namespace Sys2Proof.Machine

/-- LIT (R170). The literal `v` was read with the instruction's bytes (R119; log 12); it is pushed, and then pc skips it,
so a push that overflows leaves pc after the opcode byte. -/
def litBody (v : Short) (c : Ctx) : MicroOp Unit := do
  pushW c v
  let pc ← getPc
  setPc (pc + BitVec.ofNat 16 c.width.bytes)

/-! The seven forms of LIT, opcode index 0x00; keep loads the kept pointer and changes nothing else (R116; log 13). -/

def execLitr (v : Byte) (s : State) : Host.Outcome State Fault Refusal := runOp ⟨false, true, false⟩ 0x00#5 (litBody (byteLiteral v)) s
def execLitk (v : Byte) (s : State) : Host.Outcome State Fault Refusal := runOp ⟨true, false, false⟩ 0x00#5 (litBody (byteLiteral v)) s
def execLitkr (v : Byte) (s : State) : Host.Outcome State Fault Refusal := runOp ⟨true, true, false⟩ 0x00#5 (litBody (byteLiteral v)) s
def execLit2 (v : Short) (s : State) : Host.Outcome State Fault Refusal := runOp ⟨false, false, true⟩ 0x00#5 (litBody v) s
def execLit2r (v : Short) (s : State) : Host.Outcome State Fault Refusal := runOp ⟨false, true, true⟩ 0x00#5 (litBody v) s
def execLit2k (v : Short) (s : State) : Host.Outcome State Fault Refusal := runOp ⟨true, false, true⟩ 0x00#5 (litBody v) s
def execLit2kr (v : Short) (s : State) : Host.Outcome State Fault Refusal := runOp ⟨true, true, true⟩ 0x00#5 (litBody v) s

/-- INC (R171). `( a* -- a+1* )` -/
def incBody (c : Ctx) : MicroOp Unit := do
  let a ← popW c
  pushW c (a + 1#16)

/-! The eight forms of INC, opcode index 0x01. -/

def execInc (s : State) : Host.Outcome State Fault Refusal := runOp ⟨false, false, false⟩ 0x01#5 incBody s
def execIncr (s : State) : Host.Outcome State Fault Refusal := runOp ⟨false, true, false⟩ 0x01#5 incBody s
def execInck (s : State) : Host.Outcome State Fault Refusal := runOp ⟨true, false, false⟩ 0x01#5 incBody s
def execInckr (s : State) : Host.Outcome State Fault Refusal := runOp ⟨true, true, false⟩ 0x01#5 incBody s
def execInc2 (s : State) : Host.Outcome State Fault Refusal := runOp ⟨false, false, true⟩ 0x01#5 incBody s
def execInc2r (s : State) : Host.Outcome State Fault Refusal := runOp ⟨false, true, true⟩ 0x01#5 incBody s
def execInc2k (s : State) : Host.Outcome State Fault Refusal := runOp ⟨true, false, true⟩ 0x01#5 incBody s
def execInc2kr (s : State) : Host.Outcome State Fault Refusal := runOp ⟨true, true, true⟩ 0x01#5 incBody s

/-- POP (R172). `( a* -- )` -/
def popBody (c : Ctx) : MicroOp Unit := do
  let _ ← popW c
  return ()

/-! The eight forms of POP, opcode index 0x02. -/

def execPop (s : State) : Host.Outcome State Fault Refusal := runOp ⟨false, false, false⟩ 0x02#5 popBody s
def execPopr (s : State) : Host.Outcome State Fault Refusal := runOp ⟨false, true, false⟩ 0x02#5 popBody s
def execPopk (s : State) : Host.Outcome State Fault Refusal := runOp ⟨true, false, false⟩ 0x02#5 popBody s
def execPopkr (s : State) : Host.Outcome State Fault Refusal := runOp ⟨true, true, false⟩ 0x02#5 popBody s
def execPop2 (s : State) : Host.Outcome State Fault Refusal := runOp ⟨false, false, true⟩ 0x02#5 popBody s
def execPop2r (s : State) : Host.Outcome State Fault Refusal := runOp ⟨false, true, true⟩ 0x02#5 popBody s
def execPop2k (s : State) : Host.Outcome State Fault Refusal := runOp ⟨true, false, true⟩ 0x02#5 popBody s
def execPop2kr (s : State) : Host.Outcome State Fault Refusal := runOp ⟨true, true, true⟩ 0x02#5 popBody s

/-- DUP (R173). `( a* -- a* a* )` -/
def dupBody (c : Ctx) : MicroOp Unit := do
  let a ← popW c
  pushW c a
  pushW c a

/-! The eight forms of DUP, opcode index 0x03. -/

def execDup (s : State) : Host.Outcome State Fault Refusal := runOp ⟨false, false, false⟩ 0x03#5 dupBody s
def execDupr (s : State) : Host.Outcome State Fault Refusal := runOp ⟨false, true, false⟩ 0x03#5 dupBody s
def execDupk (s : State) : Host.Outcome State Fault Refusal := runOp ⟨true, false, false⟩ 0x03#5 dupBody s
def execDupkr (s : State) : Host.Outcome State Fault Refusal := runOp ⟨true, true, false⟩ 0x03#5 dupBody s
def execDup2 (s : State) : Host.Outcome State Fault Refusal := runOp ⟨false, false, true⟩ 0x03#5 dupBody s
def execDup2r (s : State) : Host.Outcome State Fault Refusal := runOp ⟨false, true, true⟩ 0x03#5 dupBody s
def execDup2k (s : State) : Host.Outcome State Fault Refusal := runOp ⟨true, false, true⟩ 0x03#5 dupBody s
def execDup2kr (s : State) : Host.Outcome State Fault Refusal := runOp ⟨true, true, true⟩ 0x03#5 dupBody s

/-- NIP (R174). `( b* a* -- a* )` -/
def nipBody (c : Ctx) : MicroOp Unit := do
  let a ← popW c
  let _ ← popW c
  pushW c a

/-! The eight forms of NIP, opcode index 0x04. -/

def execNip (s : State) : Host.Outcome State Fault Refusal := runOp ⟨false, false, false⟩ 0x04#5 nipBody s
def execNipr (s : State) : Host.Outcome State Fault Refusal := runOp ⟨false, true, false⟩ 0x04#5 nipBody s
def execNipk (s : State) : Host.Outcome State Fault Refusal := runOp ⟨true, false, false⟩ 0x04#5 nipBody s
def execNipkr (s : State) : Host.Outcome State Fault Refusal := runOp ⟨true, true, false⟩ 0x04#5 nipBody s
def execNip2 (s : State) : Host.Outcome State Fault Refusal := runOp ⟨false, false, true⟩ 0x04#5 nipBody s
def execNip2r (s : State) : Host.Outcome State Fault Refusal := runOp ⟨false, true, true⟩ 0x04#5 nipBody s
def execNip2k (s : State) : Host.Outcome State Fault Refusal := runOp ⟨true, false, true⟩ 0x04#5 nipBody s
def execNip2kr (s : State) : Host.Outcome State Fault Refusal := runOp ⟨true, true, true⟩ 0x04#5 nipBody s

/-- SWP (R175). `( b* a* -- a* b* )` -/
def swpBody (c : Ctx) : MicroOp Unit := do
  let a ← popW c
  let b ← popW c
  pushW c a
  pushW c b

/-! The eight forms of SWP, opcode index 0x05. -/

def execSwp (s : State) : Host.Outcome State Fault Refusal := runOp ⟨false, false, false⟩ 0x05#5 swpBody s
def execSwpr (s : State) : Host.Outcome State Fault Refusal := runOp ⟨false, true, false⟩ 0x05#5 swpBody s
def execSwpk (s : State) : Host.Outcome State Fault Refusal := runOp ⟨true, false, false⟩ 0x05#5 swpBody s
def execSwpkr (s : State) : Host.Outcome State Fault Refusal := runOp ⟨true, true, false⟩ 0x05#5 swpBody s
def execSwp2 (s : State) : Host.Outcome State Fault Refusal := runOp ⟨false, false, true⟩ 0x05#5 swpBody s
def execSwp2r (s : State) : Host.Outcome State Fault Refusal := runOp ⟨false, true, true⟩ 0x05#5 swpBody s
def execSwp2k (s : State) : Host.Outcome State Fault Refusal := runOp ⟨true, false, true⟩ 0x05#5 swpBody s
def execSwp2kr (s : State) : Host.Outcome State Fault Refusal := runOp ⟨true, true, true⟩ 0x05#5 swpBody s

/-- OVR (R176). `( b* a* -- b* a* b* )` -/
def ovrBody (c : Ctx) : MicroOp Unit := do
  let a ← popW c
  let b ← popW c
  pushW c b
  pushW c a
  pushW c b

/-! The eight forms of OVR, opcode index 0x06. -/

def execOvr (s : State) : Host.Outcome State Fault Refusal := runOp ⟨false, false, false⟩ 0x06#5 ovrBody s
def execOvrr (s : State) : Host.Outcome State Fault Refusal := runOp ⟨false, true, false⟩ 0x06#5 ovrBody s
def execOvrk (s : State) : Host.Outcome State Fault Refusal := runOp ⟨true, false, false⟩ 0x06#5 ovrBody s
def execOvrkr (s : State) : Host.Outcome State Fault Refusal := runOp ⟨true, true, false⟩ 0x06#5 ovrBody s
def execOvr2 (s : State) : Host.Outcome State Fault Refusal := runOp ⟨false, false, true⟩ 0x06#5 ovrBody s
def execOvr2r (s : State) : Host.Outcome State Fault Refusal := runOp ⟨false, true, true⟩ 0x06#5 ovrBody s
def execOvr2k (s : State) : Host.Outcome State Fault Refusal := runOp ⟨true, false, true⟩ 0x06#5 ovrBody s
def execOvr2kr (s : State) : Host.Outcome State Fault Refusal := runOp ⟨true, true, true⟩ 0x06#5 ovrBody s

/-- ROT (R177). `( x* b* a* -- b* a* x* )` -/
def rotBody (c : Ctx) : MicroOp Unit := do
  let a ← popW c
  let b ← popW c
  let x ← popW c
  pushW c b
  pushW c a
  pushW c x

/-! The eight forms of ROT, opcode index 0x07. -/

def execRot (s : State) : Host.Outcome State Fault Refusal := runOp ⟨false, false, false⟩ 0x07#5 rotBody s
def execRotr (s : State) : Host.Outcome State Fault Refusal := runOp ⟨false, true, false⟩ 0x07#5 rotBody s
def execRotk (s : State) : Host.Outcome State Fault Refusal := runOp ⟨true, false, false⟩ 0x07#5 rotBody s
def execRotkr (s : State) : Host.Outcome State Fault Refusal := runOp ⟨true, true, false⟩ 0x07#5 rotBody s
def execRot2 (s : State) : Host.Outcome State Fault Refusal := runOp ⟨false, false, true⟩ 0x07#5 rotBody s
def execRot2r (s : State) : Host.Outcome State Fault Refusal := runOp ⟨false, true, true⟩ 0x07#5 rotBody s
def execRot2k (s : State) : Host.Outcome State Fault Refusal := runOp ⟨true, false, true⟩ 0x07#5 rotBody s
def execRot2kr (s : State) : Host.Outcome State Fault Refusal := runOp ⟨true, true, true⟩ 0x07#5 rotBody s

end Sys2Proof.Machine
end

