-- ==== Sys2Proof/WellFormed.lean ====
section
/-! DEFINITION. Well-formedness. Every instruction term is well formed: no encoding is reserved (spec/30_encoding.md
R118), and a literal's width is its type. What the contract does bound is a ROM image (spec/70_reset_and_hazards.md
R333), and with it the host's transactions. -/

namespace Sys2Proof

/-- Whether an instruction is well formed: every literal value is admitted (R118, R119). -/
def Instr.wellFormed (_ : Instr) : Bool := true

/-- Whether a ROM image fits above the program base (R333). -/
def romFits (rom : List Byte) : Bool := decide (rom.length ≤ Params.memSize - Params.programBase)

/-- Whether a host transaction is within the contract by itself (R312): only LOAD has a bound. -/
def HostCmd.wellFormed : HostCmd → Bool
  | .load rom => romFits rom
  | .evaluate _ => true
  | .pokeMem _ _ => true
  | .pokeDev _ _ _ => true
  | .ppu _ => true

/-- Whether a device body's reply is within the contract: it issues no EVALUATE (spec/60_exceptions.md R310). -/
def TalkReply.wellFormed : TalkReply → Bool
  | .returns _ => true
  | .evaluates _ => false

end Sys2Proof
end

