-- ==== Sys2Proof/Machine/HostPort.lean ====
section
/-! DEFINITION. The host interface (spec/00_scope.md R7, spec/60_exceptions.md R312, R313; log 1): one transaction at a
time, performed between evaluations. -/

namespace Sys2Proof.Machine

/-- `LOAD(rom)` (R332, R333; log 9). -/
def hostLoad (rom : List Byte) (s : State) : Host.Outcome State Fault Refusal :=
  if s.loadWindow then
    if romFits rom then
      .next { s with mem := s.mem.setBytes (BitVec.ofNat 16 Params.programBase) rom, loadWindow := false }
    else .refused .romTooLong
  else .refused .loadOutsideWindow

/-- A host write of a device register (R313): the byte only, no `talk`, no vector convention. -/
def hostPokeDev (port loc : Nibble) (v : Byte) (s : State) : State :=
  s.setDev port ((s.dev port).put loc v)

/-- A pixel-device transaction of the host (R10, R272, R273). -/
def hostPpu (c : PpuCmd) (s : State) : State :=
  match c with
  | .read x y => s.readPixel x y
  | .write layer x y color => s.runPpu (.write layer x y color)
  | .resize width height => s.runPpu (.resize width height)
  | .frameReset => s.runPpu .frameReset
  | .blit1 q => s.runPpu (.blit1 q)
  | .blit2 q => s.runPpu (.blit2 q)

/-- Perform one host transaction (R312). -/
def hostStep (c : HostCmd) (s : State) : Host.Outcome State Fault Refusal :=
  match c with
  | .load rom => hostLoad rom s
  | .evaluate vector => .next { evaluate vector s with loadWindow := false }
  | .pokeMem a v => .next { s with mem := s.mem.setByte a v }
  | .pokeDev port loc v => .next (hostPokeDev port loc v s)
  | .ppu c => .next (hostPpu c s)

end Sys2Proof.Machine
end

