-- ==== Sys2Proof/Machine/Step.lean ====
section
/-! DEFINITION. One step (spec/40_evaluator.md R144 to R152): while an evaluation runs, fetch an instruction and execute
it; while none runs, the next host transaction, or idling (spec/60_exceptions.md R311). -/

namespace Sys2Proof.Machine

/-- One instruction of a running evaluation: pc advances past the opcode byte before the body runs (R145). -/
def instructionStep (s : State) : Host.Outcome State Fault Refusal :=
  match decode (fetchBytes s) with
  | .ok (i, _) => exec i { s with pc := s.pc + 1#16 }
  | .error _ => .fault .truncatedFetch

/-- The block between evaluations: the oldest pending host transaction, or no change (R7, R311; log 1). -/
def idleStep (s : State) : Host.Outcome State Fault Refusal :=
  match s.hostIn with
  | [] => .next s
  | c :: rest => hostStep c { s with hostIn := rest }

/-- One step of the block (log 27). -/
def step (s : State) : Host.Outcome State Fault Refusal :=
  if s.running then instructionStep s else idleStep s

/-- `s` with the instruction of a table word stored where `step` fetches next: its bytes at pc, in a running evaluation
(log 2, log 28). -/
def State.withFetchWord (s : State) (nbits w : Nat) : State :=
  { s with mem := s.mem.setBytes s.pc (tableBytes nbits w), running := true }

end Sys2Proof.Machine
end

