-- ==== Sys2Proof/Safety.lean ====
section
/-! DEFINITION. The words that claims are stated in: what a stack holds, what an instruction's effect is in closed form,
when it completes and when it faults, and the invariants of the machine. Nothing here is used by the machine. -/

namespace Sys2Proof.Machine

/-! ## Stacks in closed form -/

/-- The byte `n` places below the top of a stack, the top being place 0 (spec/10_state.md R37). -/
def Stack.byteAt (S : Stack) (n : Nat) : Byte :=
  if h : n < S.ptr.toNat then S.dat[S.ptr.toNat - 1 - n]'(by have := S.ptr.isLt; omega) else 0x00#8

/-- The value of width `w` whose low byte is `n` places below the top (R37, spec/20_memory.md R80). -/
def Stack.item (S : Stack) (w : Width) (n : Nat) : Short :=
  match w with
  | .byte => zext8 (S.byteAt n)
  | .short => join (S.byteAt (n + 1)) (S.byteAt n)

/-- The bytes of a value of width `w`, lowest on the stack first (R80). -/
def itemBytes (w : Width) (v : Short) : List Byte :=
  match w with
  | .byte => [loByte v]
  | .short => [hiByte v, loByte v]

/-- A stack after `n` bytes were popped in a step, at most as many as there are: the pointer moves, or in a keep-mode
step the kept pointer, loaded at its start (R79, R81, spec/40_evaluator.md R148). -/
def Stack.popped (S : Stack) (keep : Bool) (n : Nat) : Stack :=
  if keep then { S with kptr := BitVec.ofNat 8 (S.ptr.toNat - n) }
  else { S with ptr := BitVec.ofNat 8 (S.ptr.toNat - n) }

/-- A stack after the bytes `l` were pushed, in order (R78). -/
def Stack.pushed (S : Stack) (l : List Byte) : Stack :=
  { S with
    dat := Vector.ofFn fun i =>
      if h : S.ptr.toNat ≤ i.val ∧ i.val - S.ptr.toNat < l.length then l[i.val - S.ptr.toNat]'h.2 else S.dat[i.val]
    ptr := BitVec.ofNat 8 (S.ptr.toNat + l.length) }

/-- A stack with a fault recorded (R35). -/
def Stack.withFault (S : Stack) (k : FaultKind) : Stack := { S with fault := some k }

/-! ## Effects of instructions in closed form -/

/-- The effect of an instruction that pops `need` bytes from its source stack, pushes the bytes `push` on stack `onto`,
and then changes what lies outside the stacks by `rest`. -/
structure Effect where
  need : Nat
  onto : StackId
  push : List Byte
  rest : State → State

/-- No fault field is set, as before every instruction of an evaluation (R39, R143, R152). -/
def State.faultsClear (s : State) : Prop := s.wst.fault = none ∧ s.rst.fault = none

/-- The state after the pops of an effect. -/
def Effect.afterPops (e : Effect) (m : Mode) (s : State) : State :=
  s.setStack m.src ((s.stack m.src).popped m.keep e.need)

/-- The state after the whole effect. -/
def Effect.apply (e : Effect) (m : Mode) (s : State) : State :=
  let t := e.afterPops m s
  e.rest (t.setStack e.onto ((t.stack e.onto).pushed e.push))

/-- The pops find their bytes and the pushes their room. -/
def Effect.Fits (e : Effect) (m : Mode) (s : State) : Prop :=
  e.need ≤ (s.stack m.src).ptr.toNat ∧ ((e.afterPops m s).stack e.onto).ptr.toNat + e.push.length ≤ 255

/-- The pops run out of bytes. -/
def Effect.Starves (e : Effect) (m : Mode) (s : State) : Prop := (s.stack m.src).ptr.toNat < e.need

/-- The pops find their bytes and the pushes run out of room. -/
def Effect.Spills (e : Effect) (m : Mode) (s : State) : Prop :=
  e.need ≤ (s.stack m.src).ptr.toNat ∧ 255 < ((e.afterPops m s).stack e.onto).ptr.toNat + e.push.length

/-- The state in which a starving instruction is reported: every byte there was is popped, and nothing else happened
(spec/20_memory.md R79, R81). -/
def Effect.starved (e : Effect) (m : Mode) (s : State) : State :=
  s.setStack m.src (((s.stack m.src).popped m.keep e.need).withFault .underflow)

/-- The state in which a spilling instruction is reported: all pops are done, the bytes that fit are pushed, and nothing
else happened (R78, R81). -/
def Effect.spilled (e : Effect) (m : Mode) (s : State) : State :=
  let t := e.afterPops m s
  let S := t.stack e.onto
  t.setStack e.onto ((S.pushed (e.push.take (255 - S.ptr.toNat))).withFault .overflow)

/-- Instruction `i`, of mode `m` and opcode index `op`, has the effect `e s` in state `s`: it completes with it where it
fits, and takes the fault the spec names where it starves or spills (spec/40_evaluator.md R150, R151). Some opcodes have no such
states: LIT pops nothing and never starves; POP, JMP, JNZ and the stores push nothing and never spill. -/
def Obeys (i : Instr) (m : Mode) (op : BitVec 5) (e : State → Effect) : Prop :=
  ∀ s : State, s.faultsClear →
    ((e s).Fits m s → exec i s = .next ((e s).apply m s)) ∧
    ((e s).Starves m s → exec i s = .next (takeFault m.src .underflow (m.opcodeByte op) ((e s).starved m s))) ∧
    ((e s).Spills m s → exec i s = .next (takeFault (e s).onto .overflow (m.opcodeByte op) ((e s).spilled m s)))

/-- The eight bytes of opcode index `op` decode to the eight forms of body `o` (spec/30_encoding.md R117). -/
def EncodedAt (o : Opcode) (op : BitVec 5) : Prop :=
  ∀ (m : Mode) (rest : List Byte), decode (m.opcodeByte op :: rest) = .ok (o.form m, rest)

/-- Body `o` stands at opcode index `op`, and each of its eight forms has the effect `e m`. -/
def OpcodeObeys (o : Opcode) (op : BitVec 5) (e : Mode → State → Effect) : Prop :=
  EncodedAt o op ∧ ∀ m : Mode, Obeys (o.form m) m op (e m)

/-- The effect of an instruction that only works on its source stack. -/
def stackEffect (m : Mode) (need : Nat) (push : List Byte) : Effect := ⟨need, m.src, push, id⟩

/-- The effect of a binary operation whose result, on operands read as natural numbers, is `f b a` mod 2^W
(spec/44_arithmetic.md R230, R231): `a` is the top, `b` the item under it. -/
def binaryEffect (f : Nat → Nat → Nat) (m : Mode) (s : State) : Effect :=
  let S := s.stack m.src
  let w := m.width
  stackEffect m (2 * w.bytes) (itemBytes w (BitVec.ofNat 16 (f (S.item w w.bytes).toNat (S.item w 0).toNat)))

/-- The effect of a comparison that pushes the byte 1 if `f b a`, else 0 (spec/42_logic_jump.md R191). -/
def compareEffect (f : Nat → Nat → Bool) (m : Mode) (s : State) : Effect :=
  let S := s.stack m.src
  let w := m.width
  stackEffect m (2 * w.bytes) [if f (S.item w w.bytes).toNat (S.item w 0).toNat then 0x01#8 else 0x00#8]

/-- `Target(t)` (spec/42_logic_jump.md R190): `(pc + sext_8(t)) mod 65536` in byte mode, `t` in short mode. -/
def jumpTarget (m : Mode) (pc t : Short) : Short := if m.short then t else pc + BitVec.ofInt 16 (loByte t).toInt

/-- `(pc + sext_8(o)) mod 65536` (spec/43_memory_device.md R212). -/
def relativeAddress (pc : Short) (o : Byte) : Short := pc + BitVec.ofInt 16 o.toInt

/-- The address of the zero page a byte gives (R210): `zext_8(a)`. -/
def zeroPageAddress (a : Byte) : Short := BitVec.ofNat 16 a.toNat

/-- An effect that pops `need` bytes, pushes nothing, and stores `v` of the mode's width at `a` (R211). -/
def storeEffect (m : Mode) (need : Nat) (a v : Short) : Effect :=
  ⟨need, m.src, [], fun t => { t with mem := t.mem.write a v m.width }⟩

/-- The LIT form of a mode with its literal; with all flags clear the byte is BRK (spec/30_encoding.md R116). -/
def litInstr (m : Mode) (v : Short) : Instr :=
  match m with
  | ⟨false, false, false⟩ => .brk
  | ⟨false, true, false⟩ => .litr (loByte v)
  | ⟨true, false, false⟩ => .litk (loByte v)
  | ⟨true, true, false⟩ => .litkr (loByte v)
  | ⟨false, false, true⟩ => .lit2 v
  | ⟨false, true, true⟩ => .lit2r v
  | ⟨true, false, true⟩ => .lit2k v
  | ⟨true, true, true⟩ => .lit2kr v

/-! ## Device accesses in closed form -/

/-- The state after the `talk` calls of a device read of width `w` (spec/20_memory.md R85, R88). -/
def State.afterBusRead (s : State) (a : Byte) (w : Width) : State :=
  match w with
  | .byte => s.afterTalk (portOf a) (localOf a) false
  | .short => (s.afterTalk (portOf a) (localOf a) false).afterTalk (portOf a) (localOf a + 1#4) false

/-- The value of a device read of width `w`: each byte is the register as the body's reply left it (R85, R88). -/
def State.busValue (s : State) (a : Byte) (w : Width) : Short :=
  let p := portOf a
  let l := localOf a
  let t := s.afterTalk p l false
  match w with
  | .byte => zext8 ((t.dev p).get l)
  | .short => join ((t.dev p).get l) (((t.afterTalk p (l + 1#4) false).dev p).get (l + 1#4))

/-- The state after a device write of one byte: the store, then the body (R86, R87). -/
def State.afterBusByte (s : State) (p l : Nibble) (v : Byte) : State :=
  (s.setDev p ((s.dev p).busWrite l v)).afterTalk p l true

/-- The state after a device write of width `w` (R88). -/
def State.afterBusWrite (s : State) (a : Byte) (w : Width) (v : Short) : State :=
  let p := portOf a
  let l := localOf a
  match w with
  | .byte => s.afterBusByte p l (loByte v)
  | .short => (s.afterBusByte p l (hiByte v)).afterBusByte p (l + 1#4) (loByte v)

/-- The body of the port at device address `a` keeps its contract for the next `n` calls: the port is a no-op port, or no
listed reply among the next `n` is an EVALUATE (spec/60_exceptions.md R310). -/
def State.bodyObeys (s : State) (a : Byte) (n : Nat) : Prop :=
  Params.noopPort (portOf a) = true ∨ (s.talkIn.take n).all TalkReply.wellFormed = true

/-- `t` differs from `s` in port `p` alone, whose registers are then `reg` and whose vector is `vector`. -/
def PortBecomes (p : Nibble) (reg : Nibble → Byte) (vector : Short) (s t : State) : Prop :=
  t = { s with devs := t.devs } ∧ (∀ q : Nibble, q ≠ p → t.dev q = s.dev q) ∧
    (∀ l : Nibble, (t.dev p).get l = reg l) ∧ (t.dev p).vector = vector

/-- `t` differs from `s` in the byte of memory at `a` alone, which is then `v`. -/
def ByteBecomes (a : Short) (v : Byte) (s t : State) : Prop :=
  t = { s with mem := t.mem } ∧ ∀ b : Short, t.mem.byte b = if b = a then v else s.mem.byte b

/-- One effect of the body of port `p` takes `s` to `t` (spec/60_exceptions.md R310): it puts a register, the vector, a
byte of memory, or performs a pixel-device operation, and does nothing else. -/
def ActionEffect (p : Nibble) (s t : State) : TalkAction → Prop
  | .setReg l v => PortBecomes p (fun k => if k = l then v else (s.dev p).get k) (s.dev p).vector s t
  | .setVector v => PortBecomes p (s.dev p).get v s t
  | .memWrite a v => ByteBecomes a v s t
  | .ppu c => t = { s with ppu := s.ppu.run s.mem c }

/-- The effects of a body's reply, one after the other in their order, take `s` to `t` (spec/20_memory.md R93, R310). -/
def ActionsInOrder (p : Nibble) : List TalkAction → State → State → Prop
  | [], s, t => t = s
  | x :: rest, s, t => ∃ u : State, ActionEffect p s u x ∧ ActionsInOrder p rest u t

/-- The bytes of memory a store of width `w` at `a` writes (spec/20_memory.md R74). -/
def storedAt (a : Short) (w : Width) (b : Short) : Prop := b = a ∨ (w = .short ∧ b = a + 1)

/-! ## Pixels -/

/-- The 2-bit value of one layer of a pixel (spec/45_pixel_device.md R251). -/
def Ppu.layerAt (p : Ppu) (layer : Layer) (x y : Short) : Colour :=
  match layer with
  | .bg => (p.nibbleAt x y).extractLsb' 0 2
  | .fg => (p.nibbleAt x y).extractLsb' 2 2

/-- Source row `v` and column `h` of sprite `q` land on the pixel (x, y) (R264, R266, R268). -/
def spriteLands (q : Sprite) (v h : Nat) (x y : Short) : Prop :=
  x.toNat = (q.x.toNat + (if q.flipx then 7 - h else h)) % 65536 ∧
  y.toNat = (q.y.toNat + (if q.flipy then 7 - v else v)) % 65536

/-- A blit of channels `ch v h` gave `p'` from `p`: a pixel a source pixel lands on has its layer set through the blend
table unless that source pixel is transparent, and every other layer value stands (R264, R265, R269). -/
def Ppu.Painted (q : Sprite) (ch : Nat → Nat → Colour) (p p' : Ppu) : Prop :=
  ∀ x y : Short, p.inBounds x y = true →
    (∀ v h : Nat, v < 8 → h < 8 → spriteLands q v h x y →
      p'.layerAt q.layer x y =
        if ch v h ≠ 0#2 ∨ Params.opaqueColour q.color then Params.blend (ch v h) q.color else p.layerAt q.layer x y) ∧
    ((∀ v h : Nat, v < 8 → h < 8 → ¬ spriteLands q v h x y) → p'.layerAt q.layer x y = p.layerAt q.layer x y) ∧
    (∀ layer, layer ≠ q.layer → p'.layerAt layer x y = p.layerAt layer x y)

/-! ## Invariants -/

/-- The nibbles past `width` in the last word of each row (spec/10_state.md R53) are zero. -/
def Ppu.paddingClear (p : Ppu) : Prop :=
  ∀ i k : Nat, k < 8 → p.width.toNat ≤ 8 * (i % p.stride.toNat) + k → (p.word i).extractLsb' (4 * k) 4 = 0#4

/-- The pixel device is in form: the stride fits the width (R51), the words are in canonical form and lie in the
framebuffer (R52), the padding is zero (R53). -/
def Ppu.wf (p : Ppu) : Prop :=
  p.stride = strideFor p.width ∧ Cells.wfFrom p.words 0 p.pixels = true ∧ p.paddingClear

/-- The dirty range is empty while `redraw` is clear, and lies in the framebuffer, not empty, while it is set and there is
a framebuffer (spec/45_pixel_device.md R255, R256, R257). -/
def Ppu.dirtyOk (p : Ppu) : Prop :=
  (p.redraw = false → p.dirtyLo = Params.dirtyEmptyLo ∧ p.dirtyHi = 0#32) ∧
  (p.redraw = true → 0 < p.words → p.dirtyLo ≤ p.dirtyHi ∧ p.dirtyHi.toNat < p.words)

/-- The fault fields and the evaluation's answer agree (R39, R140, R143, spec/60_exceptions.md R295): at most one stack
has a fault, and while an evaluation runs there is neither a fault nor an answer. -/
def State.faultsOk (s : State) : Prop :=
  (s.wst.fault = none ∨ s.rst.fault = none) ∧ (s.running = true → s.faultsClear ∧ s.result = none)

/-- `dat[255]` of both stacks holds its reset value (R40). -/
def State.topBytesUnused (s : State) : Prop := s.wst.dat[255] = 0x00#8 ∧ s.rst.dat[255] = 0x00#8

end Sys2Proof.Machine
end

