-- ==== Sys2Proof/Certificates/Slice0/Obligations.lean ====
section
/-! DEFINITION. The statements for the provers, from the numbered rules of spec/. "The eight forms of X" are X, X2, Xr,
X2r, Xk, X2k, Xkr, X2kr, which `Opcode.form .x m` gives over the eight modes `m`; `OpcodeObeys` and `Obeys`
(Sys2Proof/Safety.lean) say for every state with clear fault fields that the form completes with the closed-form effect
where it fits, the whole of the rest of the state being unchanged, and which fault it takes, in which state, where it
starves or spills. Rules that the spec marks as its own decisions D<n> or derivations stand in the docstrings by number;
OBLIGATIONS.json cites a rule only where the source states it; every other statement is 'derived', and names the decisions
and log entries it rests on. The fields `running`,
`result`, `nibble`, `pcPolicy`, `loadWindow`, `hostIn`, `talkIn` and `draws` are the model's own (log 1, 3, 6 to 9). -/

open Sys2Proof Sys2Proof.Machine

/-! ## Reset and encoding -/

/-- Machine boot (R60, R330, R332): every piece of the block's state after reset, and memory after a LOAD from there.
Most values are the spec's decision D16, the load address D14; `hostIn` and `loadWindow` are log 1 and log 9. -/
def Obligations.BootStateAndRomLoad : Prop :=
  (∀ a : Short, State.reset.mem.byte a = 0x00#8) ∧
  State.reset.pc = 0x0000#16 ∧
  (∀ i : StackId, (State.reset.stack i).ptr = 0#8 ∧ (State.reset.stack i).kptr = 0#8 ∧
    (State.reset.stack i).fault = none ∧ ∀ k : Fin 256, (State.reset.stack i).dat[k] = 0x00#8) ∧
  (∀ p : Nibble, (State.reset.dev p).vector = 0x0000#16 ∧ ∀ l : Nibble, (State.reset.dev p).get l = 0x00#8) ∧
  State.reset.lastFault = none ∧
  State.reset.ppu.width = 512#16 ∧ State.reset.ppu.height = 320#16 ∧ State.reset.ppu.stride = 64#32 ∧
  (∀ i : Nat, State.reset.ppu.word i = 0#32) ∧
  State.reset.ppu.dirtyLo = 0#32 ∧ State.reset.ppu.dirtyHi = 20479#32 ∧ State.reset.ppu.redraw = true ∧
  State.reset.halted = false ∧
  ∀ rom : List Byte, rom.length ≤ 65280 → ∃ m : Memory,
    step { State.reset with hostIn := [.load rom] } = .next { State.reset with mem := m, loadWindow := false } ∧
    ∀ a : Short, m.byte a = if 0x0100 ≤ a.toNat then rom.getD (a.toNat - 0x0100) 0x00#8 else 0x00#8

/-- Reset meets every invariant stated below. -/
def Obligations.ResetMeetsTheInvariants : Prop :=
  State.reset.mem.wf = true ∧ State.reset.ppu.wf ∧ State.reset.ppu.dirtyOk ∧ State.reset.faultsOk ∧
    State.reset.topBytesUnused

/-- Words written out bit by bit from R110, R111, R114 and R119, one of each family and each flag, decode to the
instructions they stand for. -/
def Obligations.WrittenWordsDecode : Prop :=
  decode [0b00000000#8] = .ok (.brk, []) ∧
  decode [0b10000000#8, 0x12#8] = .ok (.litk 0x12#8, []) ∧
  decode [0b00100000#8, 0x12#8, 0x34#8] = .ok (.lit2 0x1234#16, []) ∧
  decode [0b01000001#8] = .ok (.incr, []) ∧
  decode [0b00001010#8] = .ok (.gth, []) ∧
  decode [0b01101100#8] = .ok (.jmp2r, []) ∧
  decode [0b00110111#8] = .ok (.deo2, []) ∧
  decode [0b10010100#8] = .ok (.ldak, []) ∧
  decode [0b11111000#8] = .ok (.add2kr, []) ∧
  decode [0b10011111#8] = .ok (.sftk, [])

/-- R118, R121: every byte value begins an instruction, and `lengthOf` gives its length: 1 for 0x00 and for every byte
whose low five bits are not zero, else 2, or 3 with bit 5 set. -/
def Obligations.EveryByteBeginsAnInstruction : Prop :=
  ∀ (b : Byte) (x y : Byte) (rest : List Byte), ∃ i : Instr,
    decode (b :: x :: y :: rest) = .ok (i, (x :: y :: rest).drop (lengthOf b - 1)) ∧
    (encode i).length = lengthOf b ∧
    lengthOf b = if b = 0x00#8 ∨ b.toNat % 32 ≠ 0 then 1 else if b.toNat / 32 % 2 = 0 then 2 else 3

/-- Decode and encode agree, for every instruction and every literal: bytes decode to `i` exactly when they begin with the
encoding of `i`. -/
def Obligations.DecodeAndEncodeAgree : Prop :=
  ∀ (bytes : List Byte) (i : Instr) (rest : List Byte), i.wellFormed = true →
    (decode bytes = .ok (i, rest) ↔ bytes = encode i ++ rest)

/-- R145, with the literal of R119 (the spec's decision D3) as part of the instruction, read with the fetch (log 12,
DEDUCED: the model's choice): in a running evaluation, if the bytes from pc on are the encoding of `i`, a step is `exec i` from the state
whose pc has moved past the opcode byte; and some instruction always is there. -/
def Obligations.StepRunsTheDecodedInstruction : Prop :=
  (∀ (s : State) (i : Instr), s.running = true → i.wellFormed = true →
    (∀ k : Nat, (h : k < (encode i).length) → s.mem.byte (s.pc + BitVec.ofNat 16 k) = (encode i)[k]'h) →
    step s = exec i { s with pc := s.pc + 1#16 }) ∧
  (∀ s : State, ∃ i : Instr, i.wellFormed = true ∧
    ∀ k : Nat, (h : k < (encode i).length) → s.mem.byte (s.pc + BitVec.ofNat 16 k) = (encode i)[k]'h)

/-! ## LIT and stack manipulation

The stack effects and LIT itself are the spec's decision D3, the operand widths D4, the partial effects of a fault D5, the
pc after a fault D6 (log 8). -/

/-- LIT (R170, the spec's decision D3; that `exec` is handed the literal as its operand is the model's choice, log 12,
DEDUCED; that litk, litkr, lit2k and lit2kr load kptr is the model's reading of R148 beside R116, log 13, DEDUCED): litk,
litr, litkr, lit2, lit2k, lit2r, lit2kr push their literal and skip it; a running step reads the
literal by `MemRead(pc, w)` at the address after the opcode byte. -/
def Obligations.LitPushesTheLiteralAndSkipsIt : Prop :=
  ∀ m : Mode, m ≠ ⟨false, false, false⟩ →
    (∀ v : Short, Obeys (litInstr m v) m 0x00#5 fun s =>
      ⟨0, m.src, itemBytes m.width v, fun t => { t with pc := s.pc + BitVec.ofNat 16 m.width.bytes }⟩) ∧
    (∀ s : State, s.running = true → s.mem.byte s.pc = m.opcodeByte 0x00#5 →
      step s = exec (litInstr m (s.mem.read (s.pc + 1#16) m.width)) { s with pc := s.pc + 1#16 })

/-- INC (R171), its eight forms: `( a* -- a+1* )`, mod 2^W. -/
def Obligations.IncAddsOne : Prop :=
  OpcodeObeys .inc 0x01#5 fun m s =>
    let S := s.stack m.src
    let w := m.width
    stackEffect m w.bytes (itemBytes w (S.item w 0 + 1#16))

/-- POP (R172), its eight forms: `( a* -- )`. -/
def Obligations.PopDropsTheTop : Prop :=
  OpcodeObeys .pop 0x02#5 fun m _ => stackEffect m m.width.bytes []

/-- DUP (R173), its eight forms: `( a* -- a* a* )`. -/
def Obligations.DupCopiesTheTop : Prop :=
  OpcodeObeys .dup 0x03#5 fun m s =>
    let w := m.width
    let a := itemBytes w ((s.stack m.src).item w 0)
    stackEffect m w.bytes (a ++ a)

/-- NIP (R174), its eight forms: `( b* a* -- a* )`. -/
def Obligations.NipDropsTheSecond : Prop :=
  OpcodeObeys .nip 0x04#5 fun m s =>
    let w := m.width
    stackEffect m (2 * w.bytes) (itemBytes w ((s.stack m.src).item w 0))

/-- SWP (R175), its eight forms: `( b* a* -- a* b* )`. -/
def Obligations.SwpSwapsTheTopTwo : Prop :=
  OpcodeObeys .swp 0x05#5 fun m s =>
    let w := m.width
    let a := itemBytes w ((s.stack m.src).item w 0)
    let b := itemBytes w ((s.stack m.src).item w w.bytes)
    stackEffect m (2 * w.bytes) (a ++ b)

/-- OVR (R176), its eight forms: `( b* a* -- b* a* b* )`. -/
def Obligations.OvrCopiesTheSecond : Prop :=
  OpcodeObeys .ovr 0x06#5 fun m s =>
    let w := m.width
    let a := itemBytes w ((s.stack m.src).item w 0)
    let b := itemBytes w ((s.stack m.src).item w w.bytes)
    stackEffect m (2 * w.bytes) (b ++ a ++ b)

/-- ROT (R177), its eight forms: `( c* b* a* -- b* a* c* )`. -/
def Obligations.RotBringsUpTheThird : Prop :=
  OpcodeObeys .rot 0x07#5 fun m s =>
    let w := m.width
    let a := itemBytes w ((s.stack m.src).item w 0)
    let b := itemBytes w ((s.stack m.src).item w w.bytes)
    let c := itemBytes w ((s.stack m.src).item w (2 * w.bytes))
    stackEffect m (3 * w.bytes) (b ++ a ++ c)

/-! ## Comparison and control transfer

The stack effects of EQU, NEQ, GTH, LTH, JNZ and STH are the spec's decisions D3 and D4; for every opcode here the partial
effects of a fault are its decision D5 and the pc after a fault D6 (log 8). -/

/-- EQU, NEQ, GTH, LTH (R191 to R194), the eight forms of each: one byte, 1 or 0, unsigned. -/
def Obligations.ComparisonsPushOneByte : Prop :=
  (OpcodeObeys .equ 0x08#5 <| compareEffect fun b a => decide (b = a)) ∧
  (OpcodeObeys .neq 0x09#5 <| compareEffect fun b a => decide (b ≠ a)) ∧
  (OpcodeObeys .gth 0x0A#5 <| compareEffect fun b a => decide (b > a)) ∧
  (OpcodeObeys .lth 0x0B#5 <| compareEffect fun b a => decide (b < a))

/-- JMP (R195 with the target of R190), its eight forms. That Underflow leaves every byte there was popped is the spec's
decision D5, the pc then D6 (log 8). -/
def Obligations.JmpGoesToItsTarget : Prop :=
  OpcodeObeys .jmp 0x0C#5 fun m s =>
    ⟨m.width.bytes, m.src, [], fun t => { t with pc := jumpTarget m s.pc ((s.stack m.src).item m.width 0) }⟩

/-- JNZ (R196), its eight forms: the condition is the byte under the target. -/
def Obligations.JnzJumpsOnNonZero : Prop :=
  OpcodeObeys .jnz 0x0D#5 fun m s =>
    let S := s.stack m.src
    let w := m.width
    ⟨w.bytes + 1, m.src, [], fun t =>
      if S.byteAt w.bytes ≠ 0x00#8 then { t with pc := jumpTarget m s.pc (S.item w 0) } else t⟩

/-- JSR (R197), its eight forms: the link, a short in both widths, goes on the destination stack. What Underflow and
Overflow leave is the spec's decision D5, the pc then D6 (log 8). -/
def Obligations.JsrLinksAndJumps : Prop :=
  OpcodeObeys .jsr 0x0E#5 fun m s =>
    ⟨m.width.bytes, m.dst, [hiByte s.pc, loByte s.pc],
      fun t => { t with pc := jumpTarget m s.pc ((s.stack m.src).item m.width 0) }⟩

/-- STH (R198), its eight forms. -/
def Obligations.SthMovesToTheOtherStack : Prop :=
  OpcodeObeys .sth 0x0F#5 fun m s =>
    ⟨m.width.bytes, m.dst, itemBytes m.width ((s.stack m.src).item m.width 0), id⟩

/-! ## Memory

The stack effects of LDZ, STZ, LDA and STA are the spec's decisions D3 and D4; for every opcode here the partial effects of
a fault are its decision D5, the pc after a fault D6 (log 8), byte order and wrap D12. -/

/-- LDZ (R210), its eight forms. -/
def Obligations.LdzLoadsFromTheZeroPage : Prop :=
  OpcodeObeys .ldz 0x10#5 fun m s =>
    stackEffect m 1 (itemBytes m.width (s.mem.read (zeroPageAddress ((s.stack m.src).byteAt 0)) m.width))

/-- STZ (R211), its eight forms. -/
def Obligations.StzStoresToTheZeroPage : Prop :=
  OpcodeObeys .stz 0x11#5 fun m s =>
    let S := s.stack m.src
    storeEffect m (1 + m.width.bytes) (zeroPageAddress (S.byteAt 0)) (S.item m.width 1)

/-- LDR (R212), its eight forms: relative to the pc after the opcode byte. What Underflow and Overflow leave is the spec's
decision D5, the second byte's address D12, the pc after a fault D6 (log 8). -/
def Obligations.LdrLoadsRelativeToPc : Prop :=
  OpcodeObeys .ldr 0x12#5 fun m s =>
    stackEffect m 1 (itemBytes m.width (s.mem.read (relativeAddress s.pc ((s.stack m.src).byteAt 0)) m.width))

/-- STR (R213), its eight forms. The bytes lost on Underflow are the spec's decision D5, the second byte's address D12, the
pc after a fault D6 (log 8). -/
def Obligations.StrStoresRelativeToPc : Prop :=
  OpcodeObeys .str 0x13#5 fun m s =>
    let S := s.stack m.src
    storeEffect m (1 + m.width.bytes) (relativeAddress s.pc (S.byteAt 0)) (S.item m.width 1)

/-- LDA (R214), its eight forms: the address is a short in both widths. -/
def Obligations.LdaLoadsFromAnAddress : Prop :=
  OpcodeObeys .lda 0x14#5 fun m s =>
    stackEffect m 2 (itemBytes m.width (s.mem.read ((s.stack m.src).item .short 0) m.width))

/-- STA (R215), its eight forms. -/
def Obligations.StaStoresToAnAddress : Prop :=
  OpcodeObeys .sta 0x15#5 fun m s =>
    let S := s.stack m.src
    storeEffect m (2 + m.width.bytes) (S.item .short 0) (S.item m.width 2)

/-- Memory (R73, R74, R77): a write is read back in its width, mod 2^W; its high byte lies at the address and its low byte
after it, with 16-bit wrap; every byte outside stands. -/
def Obligations.MemoryIsBigEndianAndWraps : Prop :=
  ∀ (m : Memory) (a v : Short) (w : Width),
    (m.write a v w).read a w = (match w with | .byte => zext8 (loByte v) | .short => v) ∧
    (m.write a v .byte).byte a = loByte v ∧
    (m.write a v .short).byte a = hiByte v ∧ (m.write a v .short).byte (a + 1#16) = loByte v ∧
    (∀ b : Short, ¬ storedAt a w b → (m.write a v w).byte b = m.byte b) ∧
    m.read a .short = join (m.byte a) (m.byte (BitVec.ofNat 16 ((a.toNat + 1) % 65536)))

/-- The frame of the stores STZ, STR and STA, the eight forms of each: whenever one answers a next state, every byte of
memory outside the bytes stored to reads as before, the address being computed as the meaning computes it, and nothing
but memory, the source stack and the evaluation's end differs. -/
def Obligations.StoresChangeOnlyTheirBytes : Prop :=
  ∀ (m : Mode) (s t : State),
    (exec (stzForm m) s = .next t → ∀ b, ¬ storedAt (zeroPage (zext8 ((s.stack m.src).byteAt 0))) m.width b →
      t.mem.byte b = s.mem.byte b) ∧
    (exec (strForm m) s = .next t → ∀ b, ¬ storedAt (relative s.pc (zext8 ((s.stack m.src).byteAt 0))) m.width b →
      t.mem.byte b = s.mem.byte b) ∧
    (exec (staForm m) s = .next t → ∀ b, ¬ storedAt ((s.stack m.src).item .short 0) m.width b →
      t.mem.byte b = s.mem.byte b) ∧
    (exec (stzForm m) s = .next t ∨ exec (strForm m) s = .next t ∨ exec (staForm m) s = .next t →
      t.stack m.dst = s.stack m.dst ∧ t.devs = s.devs ∧ t.ppu = s.ppu ∧ t.talkIn = s.talkIn ∧ t.draws = s.draws)

/-- The frame of everything that stores nothing: BRK, the LIT forms, and every form of every opcode but STZ, STR, STA, DEI
and DEO. Whenever one answers a next state, by completing or by a fault, every byte of memory, every device register and
vector and the whole pixel device are as before. -/
def Obligations.NonStoringInstructionsLeaveMemoryAndDevices : Prop :=
  ∀ (i : Instr) (s t : State),
    (∀ m : Mode, i ≠ stzForm m ∧ i ≠ strForm m ∧ i ≠ staForm m ∧ i ≠ deiForm m ∧ i ≠ deoForm m) →
    exec i s = .next t →
    (∀ a : Short, t.mem.byte a = s.mem.byte a) ∧ t.mem = s.mem ∧ t.devs = s.devs ∧ t.ppu = s.ppu ∧
      t.talkIn = s.talkIn ∧ t.draws = s.draws

/-! ## Devices

The vector convention is the spec's decision D10, two-byte accesses D11, the contract of device bodies D13 and D36, the
no-op ports D39, the partial effects of a fault D5, the pc after a fault D6 (log 8); `talkIn` and `draws` are log 3. -/

/-- DEI (R216), its eight forms: one `talk` before each byte read; the value is what the registers hold after. Two-byte
accesses are the spec's decision D11, the bytes pushed before Overflow D5, the pc after a fault D6 (log 8); where the
replies come from is log 3. -/
def Obligations.DeiTalksThenReads : Prop :=
  EncodedAt .dei 0x16#5 ∧ ∀ (m : Mode) (s : State), s.faultsClear →
    let S := s.stack m.src
    let d := S.byteAt 0
    let s₀ := s.setStack m.src (S.popped m.keep 1)
    let v := s₀.busValue d m.width
    let t := s₀.afterBusRead d m.width
    let T := t.stack m.src
    (1 ≤ S.ptr.toNat → s.bodyObeys d m.width.bytes →
      (T.ptr.toNat + m.width.bytes ≤ 255 →
        exec (deiForm m) s = .next (t.setStack m.src (T.pushed (itemBytes m.width v)))) ∧
      (255 < T.ptr.toNat + m.width.bytes →
        exec (deiForm m) s = .next (takeFault m.src .overflow (m.opcodeByte 0x16#5)
          (t.setStack m.src
            ((T.pushed ((itemBytes m.width v).take (255 - T.ptr.toNat))).withFault .overflow))))) ∧
    (S.ptr.toNat < 1 →
      exec (deiForm m) s = .next (takeFault m.src .underflow (m.opcodeByte 0x16#5)
        (s.setStack m.src ((S.popped m.keep 1).withFault .underflow))))

/-- DEO (R217), its eight forms: each byte is stored, then its `talk` called; an underflow writes no register and calls no
`talk`. Two-byte accesses are the spec's decision D11, the bytes lost on Underflow D5, the pc after a fault D6 (log 8);
where the replies come from is log 3. -/
def Obligations.DeoStoresThenTalks : Prop :=
  EncodedAt .deo 0x17#5 ∧ ∀ (m : Mode) (s : State), s.faultsClear →
    let S := s.stack m.src
    let d := S.byteAt 0
    let n := 1 + m.width.bytes
    (n ≤ S.ptr.toNat → s.bodyObeys d m.width.bytes →
      exec (deoForm m) s =
        .next ((s.setStack m.src (S.popped m.keep n)).afterBusWrite d m.width (S.item m.width 1))) ∧
    (S.ptr.toNat < n →
      exec (deoForm m) s = .next (takeFault m.src .underflow (m.opcodeByte 0x17#5)
        (s.setStack m.src ((S.popped m.keep n).withFault .underflow))))

/-- The bus protocol (R85, R86, and R87, the spec's decision D10): a read calls the body and then reads the register; a
write stores the register, for local register 1 sets the vector from registers 0 and 1, touches nothing else of the port,
and then calls the body. -/
def Obligations.BusReadsAfterAndWritesBeforeTalk : Prop :=
  ∀ (p l : Nibble) (v : Byte) (s : State),
    (∀ t : State, talk p l false s = .ok () t → deviceRead p l s = .ok ((t.dev p).get l) t) ∧
    ∃ d : Device, deviceWrite p l v s = talk p l true (s.setDev p d) ∧
      d.get l = v ∧ (∀ k : Nibble, k ≠ l → d.get k = (s.dev p).get k) ∧
      d.vector = if l = 1#4 then join (d.get 0#4) (d.get 1#4) else (s.dev p).vector

/-- No-op ports (R89): 7, 0xC, 0xD, 0xE and 0xF, and no other; their `talk` does nothing, a read returns the stored byte
and a write stores it, with the vector rule. -/
def Obligations.NoopPortsOnlyHoldRegisters : Prop :=
  (∀ p : Nibble, Params.noopPort p = true ↔ p.toNat ∈ [0x7, 0xC, 0xD, 0xE, 0xF]) ∧
  ∀ (p l : Nibble) (v : Byte) (b : Bool) (s : State), Params.noopPort p = true →
    talk p l b s = .ok () s ∧ deviceRead p l s = .ok ((s.dev p).get l) s ∧
    deviceWrite p l v s = .ok () (s.setDev p ((s.dev p).busWrite l v))

/-- Device bodies (R93, R310, the spec's decision D13; effects that R310 forbids have no constructor, log 4, DEDUCED; the
order of a reply is log 5, DEDUCED; where replies come from is log 3: the model's choices): whatever a body replies, listed
or free, `talk` leaves the stacks, pc, the fault report, the evaluation and every other port's registers and vector as they
are. A call of a live body whose listed reply is `acts` takes that reply from the list and performs `acts` in order and
nothing else; where none is listed, some actions, left free, are performed so. A pixel-device action performs the operation
it names (R10). -/
def Obligations.TalkChangesOnlyWhatABodyMay : Prop :=
  (∀ (p l : Nibble) (b : Bool) (s : State), let t := s.afterTalk p l b
    t.wst = s.wst ∧ t.rst = s.rst ∧ t.pc = s.pc ∧ t.lastFault = s.lastFault ∧ t.running = s.running ∧
    t.result = s.result ∧ t.hostIn = s.hostIn ∧ t.loadWindow = s.loadWindow ∧ t.pcPolicy = s.pcPolicy ∧
    t.nibble = s.nibble ∧ ∀ q : Nibble, q ≠ p → t.dev q = s.dev q) ∧
  (∀ (p l : Nibble) (b : Bool) (s : State), Params.noopPort p = false →
    (∀ (acts : List TalkAction) (rest : List TalkReply), s.talkIn = .returns acts :: rest →
      talk p l b s = .ok () (s.afterTalk p l b) ∧
      ActionsInOrder p acts { s with talkIn := rest, draws := s.draws + 1 } (s.afterTalk p l b)) ∧
    (s.talkIn = [] → talk p l b s = .ok () (s.afterTalk p l b) ∧ ∃ acts : List TalkAction,
      ActionsInOrder p acts { s with draws := s.draws + 1 } (s.afterTalk p l b))) ∧
  ∀ (d : Ppu) (mem : Memory),
    (∀ x y, d.run mem (.read x y) = d) ∧ (∀ layer x y c, d.run mem (.write layer x y c) = d.write layer x y c) ∧
    (∀ w h, d.run mem (.resize w h) = d.resize w h) ∧ d.run mem .frameReset = d.frameReset ∧
    (∀ q, d.run mem (.blit1 q) = d.blit1 mem q) ∧ (∀ q, d.run mem (.blit2 q) = d.blit2 mem q)

/-- R157 (the spec's decision D36; replies are log 3): a live body that answers a `talk` of DEI or DEO with EVALUATE makes
each of their eight forms refuse: the first `talk` in every form, the second in the short forms. -/
def Obligations.EvaluateFromATalkIsRefused : Prop :=
  ∀ (m : Mode) (s : State) (v : Short) (rest : List TalkReply),
    Params.noopPort (portOf ((s.stack m.src).byteAt 0)) = false →
    (s.talkIn = .evaluates v :: rest ∨
      m.short = true ∧ ∃ acts : List TalkAction, s.talkIn = .returns acts :: .evaluates v :: rest) →
    (1 ≤ (s.stack m.src).ptr.toNat → exec (deiForm m) s = .refused .reentrantEvaluate) ∧
    (1 + m.width.bytes ≤ (s.stack m.src).ptr.toNat → exec (deoForm m) s = .refused .reentrantEvaluate)

/-! ## Arithmetic and bitwise

The stack effects and results are the spec's decisions D3 and D4, the partial effects of a fault D5, the pc after a fault
D6 (log 8). -/

/-- ADD (R232), its eight forms: `( b* a* -- (b+a)* )` mod 2^W. -/
def Obligations.AddIsModular : Prop := OpcodeObeys .add 0x18#5 <| binaryEffect fun b a => b + a

/-- SUB (R233), its eight forms: `( b* a* -- (b-a)* )` mod 2^W. -/
def Obligations.SubIsModular : Prop := OpcodeObeys .sub 0x19#5 <| binaryEffect fun b a => b + 65536 - a

/-- MUL (R234), its eight forms: the low W bits of the product. -/
def Obligations.MulKeepsTheLowHalf : Prop := OpcodeObeys .mul 0x1A#5 <| binaryEffect fun b a => b * a

/-- DIV (R235, the spec's decision D3, and R236; what Underflow and Overflow leave is D5, the pc after a fault D6, log 8),
its eight forms: the floor of b / a for a non-zero divisor; for a zero divisor, once both pops
succeeded, DivideByZero on src with nothing pushed. -/
def Obligations.DivDividesOrFaults : Prop :=
  EncodedAt .div 0x1B#5 ∧ ∀ (m : Mode) (s : State), s.faultsClear →
    let e := binaryEffect (fun b a => b / a) m s
    let a := (s.stack m.src).item m.width 0
    (e.Fits m s → a ≠ 0#16 → exec (divForm m) s = .next (e.apply m s)) ∧
    (e.Spills m s → a ≠ 0#16 →
      exec (divForm m) s = .next (takeFault m.src .overflow (m.opcodeByte 0x1B#5) (e.spilled m s))) ∧
    (2 * m.width.bytes ≤ (s.stack m.src).ptr.toNat → a = 0#16 →
      exec (divForm m) s = .next (takeFault m.src .divideByZero (m.opcodeByte 0x1B#5)
        (s.setStack m.src (((s.stack m.src).popped m.keep (2 * m.width.bytes)).withFault .divideByZero)))) ∧
    (e.Starves m s →
      exec (divForm m) s = .next (takeFault m.src .underflow (m.opcodeByte 0x1B#5) (e.starved m s)))

/-- AND, ORA, EOR (R237), the eight forms of each: bit by bit. -/
def Obligations.BitwiseOpsWorkBitByBit : Prop :=
  (OpcodeObeys .and 0x1C#5 <| binaryEffect fun b a => b &&& a) ∧
  (OpcodeObeys .ora 0x1D#5 <| binaryEffect fun b a => b ||| a) ∧
  (OpcodeObeys .eor 0x1E#5 <| binaryEffect fun b a => b ^^^ a)

/-- SFT (R238), its eight forms: right by the control byte's bits 2:0, then left by its bits 6:4, mod 2^W. -/
def Obligations.SftShiftsRightThenLeft : Prop :=
  OpcodeObeys .sft 0x1F#5 fun m s =>
    let S := s.stack m.src
    let c := (S.byteAt 0).toNat
    stackEffect m (1 + m.width.bytes)
      (itemBytes m.width
        (BitVec.ofNat 16 (((S.item m.width 1).toNat >>> (c % 8)) <<< (c / 16 % 8))))

/-! ## The evaluator

The one fault of a step and its partial effects are the spec's decision D5, the pc policy D6, the clear at entry D7, host
register writes D32, the out-of-bounds read D25. -/

/-- BRK (R146): the evaluation ends with answer true, pc is left after the BRK byte, and nothing else changes, not even a
fault field. -/
def Obligations.BrkEndsTheEvaluation : Prop :=
  (∀ s : State, exec .brk s = .next { s with running := false, result := some true }) ∧
  ∀ s : State, s.running = true → s.mem.byte s.pc = 0x00#8 →
    step s = .next { s with pc := s.pc + 1#16, running := false, result := some true }

/-- EVALUATE (R141, R142, and the fault clear of R143, the spec's decision D7; that every EVALUATE issued, a refused one
too, closes the load window is log 9, DESIGN CHOICE; `running` and `result` are log 7, `hostIn` log 1): with vector 0 or the halt flag set it
answers false and changes nothing of the block; else it starts at the vector with the working stack pointer clamped to
0xF8 and both fault fields clear. -/
def Obligations.EvaluateIsRefusedOrEntered : Prop :=
  ∀ (s : State) (v : Short) (rest : List HostCmd), s.running = false → s.hostIn = .evaluate v :: rest →
    ((v = 0x0000#16 ∨ (s.dev 0x0#4).get 0xF#4 ≠ 0x00#8) →
      step s = .next { s with hostIn := rest, loadWindow := false, result := some false }) ∧
    (v ≠ 0x0000#16 → (s.dev 0x0#4).get 0xF#4 = 0x00#8 →
      step s = .next { s with
        hostIn := rest
        loadWindow := false
        pc := v
        wst := { s.wst with ptr := BitVec.ofNat 8 (min s.wst.ptr.toNat 0xF8), fault := none }
        rst := { s.rst with fault := none }
        running := true
        result := none })

/-- The check after a step (R151; R144, R296, and R297, derived by the spec, with its decision D6 and log 8; `running` and
`result` are log 7): a running evaluation whose fault fields
are clear goes on with them clear, or ends at a BRK with answer true, or ends because a fault field was set: then the
report holds the fault's kind, its stack, the opcode byte and the address after it, EVALUATE answers false, the fault
stays recorded, and pc follows the policy. -/
def Obligations.EvaluationsEndOnlyAtBrkOrFault : Prop :=
  ∀ s t : State, s.running = true → s.faultsClear → step s = .next t →
    (t.running = true ∧ t.faultsClear ∧ t.result = s.result ∧ t.lastFault = s.lastFault) ∨
    (t.running = false ∧ t.faultsClear ∧
      s.mem.byte s.pc = 0x00#8 ∧ t.result = some true ∧ t.lastFault = s.lastFault ∧ t.pc = s.pc + 1#16) ∨
    (t.running = false ∧ s.mem.byte s.pc ≠ 0x00#8 ∧ t.result = some false ∧ ∃ (k : FaultKind) (i : StackId),
      t.lastFault = some ⟨k, i, s.mem.byte s.pc, s.pc + 1#16⟩ ∧ (t.stack i).fault = some k ∧
      t.pc = match s.pcPolicy with
        | .leave => s.pc + 1#16
        | .zero => 0x0000#16)

/-- R78 to R81: what half of a two-byte stack access leaves. -/
def Obligations.HalfDoneStackAccesses : Prop :=
  ∀ (s : State) (i : StackId) (v : Short) (c : Ctx),
    ((s.stack i).ptr = 254#8 → ∃ S : Stack,
      push i .short v s = .error .fault (s.setStack i S) ∧
      S = { s.stack i with dat := (s.stack i).dat.set 254 (hiByte v), ptr := 255#8, fault := some .overflow }) ∧
    ((s.stack i).ptr = 255#8 →
      push i .short v s = .error .fault (s.setStack i { s.stack i with fault := some .overflow })) ∧
    (c.src = i → c.keep = false → (s.stack i).ptr = 1#8 →
      pop c .short s = .error .fault (s.setStack i { s.stack i with ptr := 0#8, fault := some .underflow })) ∧
    (c.src = i → c.keep = true → (s.stack i).kptr = 1#8 →
      pop c .short s = .error .fault (s.setStack i { s.stack i with kptr := 0#8, fault := some .underflow }))

/-- R36, R147, R178: only JSR and STH touch the destination stack. Whenever BRK, a LIT form or a form of any other opcode
answers a next state, the stack that is not its source is as before; BRK leaves both. -/
def Obligations.DestinationStackChangesOnlyInJsrAndSth : Prop :=
  (∀ (o : Opcode) (m : Mode) (s t : State), o ≠ .jsr → o ≠ .sth → exec (o.form m) s = .next t →
    t.stack m.dst = s.stack m.dst) ∧
  (∀ (m : Mode) (v : Short) (s t : State), exec (litInstr m v) s = .next t → t.stack m.dst = s.stack m.dst) ∧
  (∀ s t : State, exec .brk s = .next t → t.wst = s.wst ∧ t.rst = s.rst)

/-- R7: while an evaluation runs, a step performs no host transaction and leaves what only the host touches. -/
def Obligations.RunningStepsLeaveTheHostAlone : Prop :=
  ∀ s t : State, s.running = true → step s = .next t →
    t.hostIn = s.hostIn ∧ t.loadWindow = s.loadWindow ∧ t.nibble = s.nibble ∧ t.pcPolicy = s.pcPolicy

/-- A step never stops with a fault (R118, R294), and it is refused only outside the contract: a device body's EVALUATE
inside a DEI or DEO (R157), a LOAD after the load window (R333; its bookkeeping is the model's, log 9), or a LOAD of a
ROM that is too long (R333). -/
def Obligations.StepsStopOnlyOutsideTheContract : Prop :=
  (∀ (s : State) (f : Fault), step s ≠ .fault f) ∧
  ∀ (s : State) (r : Refusal), step s = .refused r →
    (r = .reentrantEvaluate ∧ s.running = true ∧
      ((s.mem.byte s.pc).toNat % 32 = 0x16 ∨ (s.mem.byte s.pc).toNat % 32 = 0x17) ∧
      ∃ v : Short, .evaluates v ∈ s.talkIn) ∨
    (s.running = false ∧ ∃ (rom : List Byte) (rest : List HostCmd), s.hostIn = .load rom :: rest ∧
      ((r = .loadOutsideWindow ∧ s.loadWindow = false) ∨ (r = .romTooLong ∧ 65280 < rom.length)))

/-- The host between evaluations (R7, R10, R273, R312, R313; the spec's decisions D32 and D42, log 1): a memory write puts
exactly its byte; a register write puts its byte, with no `talk`, no vector change and every other port as it was; a pixel
write, resize, frame_reset, blit1 or blit2 performs that operation, sprites read from memory, and touches nothing else; a
pixel read in bounds answers the nibble and changes no state of the block (R253); out of bounds it completes too, its
answer left free (R254, the spec's decision D25; log 6). -/
def Obligations.HostPokesAndPixelReads : Prop :=
  ∀ (s : State) (rest : List HostCmd), s.running = false →
    (∀ (a : Short) (v : Byte), s.hostIn = .pokeMem a v :: rest → ∃ t : State,
      step s = .next { t with hostIn := rest } ∧ ByteBecomes a v s t) ∧
    (∀ (p l : Nibble) (v : Byte), s.hostIn = .pokeDev p l v :: rest → ∃ t : State,
      step s = .next { t with hostIn := rest } ∧
      PortBecomes p (fun k => if k = l then v else (s.dev p).get k) (s.dev p).vector s t) ∧
    (∀ (layer : Layer) (x y : Short) (c : Colour), s.hostIn = .ppu (.write layer x y c) :: rest →
      step s = .next { s with hostIn := rest, ppu := s.ppu.write layer x y c }) ∧
    (∀ w h : Short, s.hostIn = .ppu (.resize w h) :: rest →
      step s = .next { s with hostIn := rest, ppu := s.ppu.resize w h }) ∧
    (s.hostIn = .ppu .frameReset :: rest → step s = .next { s with hostIn := rest, ppu := s.ppu.frameReset }) ∧
    (∀ q : Sprite, s.hostIn = .ppu (.blit1 q) :: rest →
      step s = .next { s with hostIn := rest, ppu := s.ppu.blit1 s.mem q }) ∧
    (∀ q : Sprite, s.hostIn = .ppu (.blit2 q) :: rest →
      step s = .next { s with hostIn := rest, ppu := s.ppu.blit2 s.mem q }) ∧
    (∀ x y : Short, s.hostIn = .ppu (.read x y) :: rest →
      (x.toNat < s.ppu.width.toNat → y.toNat < s.ppu.height.toNat →
        step s = .next { s with hostIn := rest, nibble := some (s.ppu.nibbleAt x y) }) ∧
      (s.ppu.width.toNat ≤ x.toNat ∨ s.ppu.height.toNat ≤ y.toNat → ∃ n : Nibble,
        step s = .next { s with hostIn := rest, nibble := some n, draws := s.draws + 1 }))

/-! ## The pixel device

The layout is the spec's decision D17, the blend table D18, bit order, flips and wraps of sprites D19 to D21, the dirty
range D22 and D23. -/

/-- The closed forms of the blend table (R263). -/
def Obligations.BlendTableClosedForms : Prop :=
  ∀ c : Nibble,
    (Params.blend 0#2 c).toNat = (if c.toNat % 5 = 0 then 0 else c.toNat / 4) ∧
    (Params.blend 1#2 c).toNat = c.toNat % 4 ∧
    (Params.blend 2#2 c).toNat = c.toNat % 4 % 3 + 1 ∧
    (Params.blend 3#2 c).toNat = (c.toNat % 4 + 1) % 3 + 1 ∧
    (Params.opaqueColour c = false ↔ c.toNat % 5 = 0)

/-- R252, R253: in a pixel device in form, a pixel write sets its layer value, leaves the other layer and every other
pixel, and is dropped out of bounds. -/
def Obligations.PixelWritesAreReadBack : Prop :=
  ∀ (p : Ppu) (layer : Layer) (x y : Short) (c : Colour), p.wf →
    (p.inBounds x y = false → p.write layer x y c = p) ∧
    (p.inBounds x y = true →
      (p.write layer x y c).layerAt layer x y = c ∧
      (∀ other, other ≠ layer → (p.write layer x y c).layerAt other x y = p.layerAt other x y) ∧
      ∀ x' y' : Short, p.inBounds x' y' = true → (x' ≠ x ∨ y' ≠ y) →
        (p.write layer x y c).nibbleAt x' y' = p.nibbleAt x' y')

/-- R252, R258: a pixel write that leaves its word as it was changes nothing at all; one that changes it sets `redraw` and
takes the word's index into the dirty range by minimum and maximum. -/
def Obligations.PixelWritesDirtyOnlyWhatChanges : Prop :=
  ∀ (p : Ppu) (layer : Layer) (x y : Short) (c : Colour), p.wf → p.inBounds x y = true →
    let i := y.toNat * p.stride.toNat + x.toNat / 8
    let p' := p.write layer x y c
    (p.layerAt layer x y = c → p' = p) ∧
    (p.layerAt layer x y ≠ c →
      p'.word i ≠ p.word i ∧ (∀ j, j ≠ i → p'.word j = p.word j) ∧ p'.redraw = true ∧
      p'.dirtyLo.toNat = min p.dirtyLo.toNat i ∧ p'.dirtyHi.toNat = max p.dirtyHi.toNat i ∧
      p'.width = p.width ∧ p'.height = p.height ∧ p'.stride = p.stride)

/-- R255, R256: what `resize` and `frame_reset` leave. -/
def Obligations.ResizeAndFrameReset : Prop :=
  (∀ (p : Ppu) (w h : Short), let p' := p.resize w h
    let words := ((w.toNat + 7) / 8) * h.toNat
    p'.width = w ∧ p'.height = h ∧ p'.stride.toNat = (w.toNat + 7) / 8 ∧ (∀ i, p'.word i = 0#32) ∧ p'.redraw = true ∧
    (0 < words → p'.dirtyLo = 0#32 ∧ p'.dirtyHi.toNat = words - 1) ∧
    (words = 0 → p'.dirtyLo = 0xFFFFFFFF#32 ∧ p'.dirtyHi = 0#32)) ∧
  ∀ p : Ppu, p.frameReset = { p with redraw := false, dirtyLo := 0xFFFFFFFF#32, dirtyHi := 0#32 }

/-- R264 to R270: a sprite blit paints exactly the in-bounds pixels its source pixels land on, through the blend table,
transparent ones left out; the channels are the sprite rows' bits in memory, bit 7 leftmost. -/
def Obligations.BlitsPaintTheirSprite : Prop :=
  ∀ (p : Ppu) (mem : Memory) (q : Sprite), p.wf →
    Ppu.Painted q (fun v h => if (mem.byte (q.addr + BitVec.ofNat 16 v)).getLsbD (7 - h) then 1#2 else 0#2)
      p (p.blit1 mem q) ∧
    Ppu.Painted q (fun v h => BitVec.ofNat 2
        ((mem.byte (q.addr + BitVec.ofNat 16 v)).getLsbD (7 - h)).toNat +
        BitVec.ofNat 2 (2 * ((mem.byte (q.addr + BitVec.ofNat 16 (8 + v))).getLsbD (7 - h)).toNat))
      p (p.blit2 mem q)

/-- R257: after a `frame_reset`, whatever pixel writes and blits follow, every word that differs from its value at the
reset lies in the dirty range with `redraw` set, and the range never leaves the framebuffer. -/
def Obligations.DirtyRangeCoversEveryChange : Prop :=
  ∀ (p : Ppu) (mem : Memory) (cmds : List PpuCmd), p.wf →
    (∀ c ∈ cmds, c ≠ .frameReset ∧ ∀ w h, c ≠ .resize w h) →
    let p' := cmds.foldl (fun q c => q.run mem c) p.frameReset
    (∀ i : Nat, p'.word i ≠ p.word i → p'.redraw = true ∧ p'.dirtyLo.toNat ≤ i ∧ i ≤ p'.dirtyHi.toNat) ∧
    p'.dirtyOk

/-- R271: two pixel writes of one layer to different pixels of a device in form may be done in either order. -/
def Obligations.PixelWritesCommute : Prop :=
  ∀ (p : Ppu) (layer : Layer) (x y x' y' : Short) (c c' : Colour), p.wf → (x ≠ x' ∨ y ≠ y') →
    (p.write layer x y c).write layer x' y' c' = (p.write layer x' y' c').write layer x y c

/-! ## Invariants that every step keeps -/

/-- Memory keeps its canonical form (log 10), whatever a device body or the host writes. -/
def Obligations.StepKeepsMemoryCanonical : Prop :=
  ∀ s t : State, s.mem.wf = true → step s = .next t → t.mem.wf = true

/-- The pixel device stays in form, its padding zero (R51 to R53), and its dirty range right (R255 to R257), whatever
operations device bodies and the host issue. -/
def Obligations.StepKeepsThePixelDeviceInForm : Prop :=
  ∀ s t : State, s.ppu.wf → s.ppu.dirtyOk → step s = .next t → t.ppu.wf ∧ t.ppu.dirtyOk

/-- At most one stack has a fault, and a running evaluation has none and no answer yet (R39, R140, R143, R295). -/
def Obligations.StepKeepsFaultsAndAnswersApart : Prop :=
  ∀ s t : State, s.faultsOk → step s = .next t → t.faultsOk

/-- `dat[255]` of both stacks is never written (R40). -/
def Obligations.StepKeepsTheTopBytesUnused : Prop :=
  ∀ s t : State, s.topBytesUnused → step s = .next t → t.topBytesUnused

/-! ## The byte stack primitives -/

/-- R78, R79: a byte push at pointer 255 records Overflow and leaves the bytes and pointers as they were, and nothing after
it in the step takes effect ("must not mutate stack contents further that step"; R17); below, it writes its byte in the free slot and moves the pointer up, and never touches the kept
pointer. A byte pop takes the byte below its pointer, the kept one in a keep-mode step and else the main one, moves that
pointer down, and clears nothing; at 0 it records Underflow. Pops are made from the source stack only: no instruction
lowers the other stack's pointer or moves its kept pointer. -/
def Obligations.BytePushesAndPops : Prop :=
  (∀ (s : State) (i : StackId) (b : Byte), let S := s.stack i
    (S.ptr = 255#8 → ∀ next : Unit → MicroOp Unit,
      (push8 i b >>= next) s = .error .fault (s.setStack i { S with fault := some .overflow })) ∧
    (S.ptr ≠ 255#8 → ∃ T : Stack, push8 i b s = .ok () (s.setStack i T) ∧ T.ptr.toNat = S.ptr.toNat + 1 ∧
      (∀ k : Fin 256, T.dat[k] = if k.val = S.ptr.toNat then b else S.dat[k]) ∧
      T.kptr = S.kptr ∧ T.fault = S.fault)) ∧
  (∀ (s : State) (c : Ctx), let S := s.stack c.src
    ((if c.keep then S.kptr else S.ptr) = 0#8 →
      pop8 c s = .error .fault (s.setStack c.src { S with fault := some .underflow })) ∧
    (c.keep = true → ∀ k : Fin 256, S.kptr.toNat = k.val + 1 →
      pop8 c s = .ok S.dat[k] (s.setStack c.src { S with kptr := BitVec.ofNat 8 k.val })) ∧
    (c.keep = false → ∀ k : Fin 256, S.ptr.toNat = k.val + 1 →
      pop8 c s = .ok S.dat[k] (s.setStack c.src { S with ptr := BitVec.ofNat 8 k.val }))) ∧
  ∀ (m : Mode) (i : Instr) (s t : State), (i = .brk ∨ (∃ v, i = litInstr m v) ∨ ∃ o : Opcode, i = o.form m) →
    exec i s = .next t →
    (s.stack m.dst).ptr ≤ (t.stack m.dst).ptr ∧ (t.stack m.dst).kptr = (s.stack m.dst).kptr
end

