-- ==== Sys2Proof/Laws/Bits.lean ====
section
/-! SUPPORT. Splitting a short into bytes and joining bytes to a short. -/

namespace Sys2Proof

theorem getLsbD_join (hi lo : Byte) (k : Nat) :
    (join hi lo).getLsbD k = if k < 8 then lo.getLsbD k else hi.getLsbD (k - 8) := by
  have := BitVec.getLsbD_append (x := hi) (y := lo) (i := k)
  simpa [join] using this

@[simp] theorem join_hi_lo (v : Short) : join (hiByte v) (loByte v) = v := by
  apply BitVec.eq_of_getLsbD_eq
  intro i hi
  simp only [getLsbD_join, hiByte, loByte, BitVec.getLsbD_extractLsb']
  split
  · simp_all
  · simp [show i - 8 < 8 by omega, show 8 + (i - 8) = i by omega]

@[simp] theorem hiByte_join (hi lo : Byte) : hiByte (join hi lo) = hi := by
  apply BitVec.eq_of_getLsbD_eq
  intro i hi'
  rw [hiByte, BitVec.getLsbD_extractLsb', getLsbD_join]
  simp [hi']

@[simp] theorem loByte_join (hi lo : Byte) : loByte (join hi lo) = lo := by
  apply BitVec.eq_of_getLsbD_eq
  intro i hi'
  rw [loByte, BitVec.getLsbD_extractLsb', getLsbD_join]
  simp [hi']

end Sys2Proof
end

