-- ==== Sys2Proof/Laws/Cells.lean ====
section
/-! SUPPORT. Sparse words and memory: read after write, the canonical form is kept, and equal contents are equal lists. -/

namespace Sys2Proof.Machine

namespace Cells

variable {n : Nat}

@[simp] theorem read_nil (a : Nat) : read a ([] : List (Nat × BitVec n)) = 0#n := rfl

theorem read_erase_same (a : Nat) (m : List (Nat × BitVec n)) : read a (erase a m) = 0#n := by
  induction m with
  | nil => rfl
  | cons c rest ih =>
    obtain ⟨b, x⟩ := c
    by_cases h : a = b <;> simp [erase, read, h]
    · simpa [h] using ih
    · exact ih

theorem read_erase_other {a b : Nat} (h : b ≠ a) (m : List (Nat × BitVec n)) : read b (erase a m) = read b m := by
  induction m with
  | nil => rfl
  | cons c rest ih =>
    obtain ⟨k, x⟩ := c
    by_cases ha : a = k
    · subst ha; simp [erase, read, h, ih]
    · by_cases hb : b = k <;> simp [erase, read, ha, hb, ih]

theorem read_insert_same (a : Nat) (v : BitVec n) (m : List (Nat × BitVec n)) (h : read a m = 0#n)
    (hm : ∀ x, (a, x) ∉ m) : read a (insert a v m) = v := by
  induction m with
  | nil => simp [insert, read]
  | cons c rest ih =>
    obtain ⟨k, x⟩ := c
    have hk : a ≠ k := fun e => hm x (by simp [e])
    by_cases hlt : a < k
    · simp [insert, read, hlt]
    · simp only [read, hk, if_false] at h
      simp [insert, read, hlt, hk, ih h fun y hy => hm y (List.mem_cons_of_mem _ hy)]

theorem read_insert_other {a b : Nat} (h : b ≠ a) (v : BitVec n) (m : List (Nat × BitVec n)) :
    read b (insert a v m) = read b m := by
  induction m with
  | nil => simp [insert, read, h]
  | cons c rest ih =>
    obtain ⟨k, x⟩ := c
    by_cases hlt : a < k
    · simp [insert, read, hlt, h]
    · by_cases hb : b = k <;> simp [insert, read, hlt, hb, ih]

theorem not_mem_erase (a : Nat) (x : BitVec n) (m : List (Nat × BitVec n)) : (a, x) ∉ erase a m := by
  induction m with
  | nil => simp [erase]
  | cons c rest ih =>
    obtain ⟨k, y⟩ := c
    by_cases h : a = k <;> simp [erase, h]
    · simpa [h] using ih
    · exact ih

/-- The stored word is read back. -/
@[simp] theorem read_write_same (a : Nat) (v : BitVec n) (m : List (Nat × BitVec n)) : read a (write a v m) = v := by
  unfold write
  split
  · next h => rw [read_erase_same, h]
  · exact read_insert_same a v _ (read_erase_same a m) fun x => not_mem_erase a x m

/-- A store leaves every other key alone. -/
theorem read_write_other {a b : Nat} (h : b ≠ a) (v : BitVec n) (m : List (Nat × BitVec n)) :
    read b (write a v m) = read b m := by
  unfold write
  split
  · exact read_erase_other h m
  · rw [read_insert_other h, read_erase_other h]

theorem read_write (a b : Nat) (v : BitVec n) (m : List (Nat × BitVec n)) :
    read b (write a v m) = if b = a then v else read b m := by
  split
  · next h => rw [h, read_write_same]
  · next h => exact read_write_other h v m

/-! The canonical form. -/

theorem wfFrom_cons (limit lo a : Nat) (v : BitVec n) (rest : List (Nat × BitVec n)) :
    wfFrom limit lo ((a, v) :: rest) = true ↔
      lo ≤ a ∧ a < limit ∧ v ≠ 0#n ∧ wfFrom limit (a + 1) rest = true := by
  simp [wfFrom, and_assoc]

theorem wfFrom_mono {limit lo lo' : Nat} (h : lo' ≤ lo) (m : List (Nat × BitVec n)) (hm : wfFrom limit lo m = true) :
    wfFrom limit lo' m = true := by
  cases m with
  | nil => rfl
  | cons c rest =>
    obtain ⟨a, v⟩ := c
    rw [wfFrom_cons] at hm ⊢
    exact ⟨h.trans hm.1, hm.2⟩

theorem wfFrom_erase {limit : Nat} (a : Nat) (m : List (Nat × BitVec n)) :
    ∀ lo, wfFrom limit lo m = true → wfFrom limit lo (erase a m) = true := by
  induction m with
  | nil => exact fun _ h => h
  | cons c rest ih =>
    obtain ⟨k, x⟩ := c
    intro lo hm
    rw [wfFrom_cons] at hm
    by_cases h : a = k
    · simp only [erase, h, if_true]
      exact h ▸ wfFrom_mono (by omega) _ (ih (k + 1) hm.2.2.2)
    · simp only [erase, h, if_false]
      rw [wfFrom_cons]
      exact ⟨hm.1, hm.2.1, hm.2.2.1, ih _ hm.2.2.2⟩

theorem wfFrom_insert {limit a : Nat} {v : BitVec n} (ha : a < limit) (hv : v ≠ 0#n) (m : List (Nat × BitVec n)) :
    ∀ lo, lo ≤ a → (∀ x, (a, x) ∉ m) → wfFrom limit lo m = true → wfFrom limit lo (insert a v m) = true := by
  induction m with
  | nil => intro lo h _ _; simp [insert, wfFrom, h, ha, hv]
  | cons c rest ih =>
    obtain ⟨k, x⟩ := c
    intro lo hlo hnot hm
    have hk : a ≠ k := fun e => hnot x (by simp [e])
    have hm' := (wfFrom_cons ..).1 hm
    by_cases hlt : a < k
    · simp only [insert, hlt, if_true]
      rw [wfFrom_cons, wfFrom_cons]
      exact ⟨hlo, ha, hv, hlt, hm'.2⟩
    · simp only [insert, hlt, if_false]
      rw [wfFrom_cons]
      exact ⟨hm'.1, hm'.2.1, hm'.2.2.1,
        ih (k + 1) (by omega) (fun y hy => hnot y (List.mem_cons_of_mem _ hy)) hm'.2.2.2⟩

/-- A store below the limit keeps the canonical form. -/
theorem wfFrom_write {limit a : Nat} (ha : a < limit) (v : BitVec n) {m : List (Nat × BitVec n)}
    (hm : wfFrom limit 0 m = true) : wfFrom limit 0 (write a v m) = true := by
  unfold write
  split
  · exact wfFrom_erase a m 0 hm
  · next h => exact wfFrom_insert ha h _ 0 (Nat.zero_le _) (not_mem_erase a · m) (wfFrom_erase a m 0 hm)

theorem read_of_lt {limit lo a : Nat} (m : List (Nat × BitVec n)) (hm : wfFrom limit lo m = true) (h : a < lo) :
    read a m = 0#n := by
  induction m generalizing lo with
  | nil => rfl
  | cons c rest ih =>
    obtain ⟨k, x⟩ := c
    rw [wfFrom_cons] at hm
    simp only [read, show a ≠ k by omega, if_false]
    exact ih hm.2.2.2 (by omega)

/-- A word at or past the limit is not listed, so it reads as 0. -/
theorem read_of_limit_le {limit lo a : Nat} (m : List (Nat × BitVec n)) (hm : wfFrom limit lo m = true)
    (h : limit ≤ a) : read a m = 0#n := by
  induction m generalizing lo with
  | nil => rfl
  | cons c rest ih =>
    obtain ⟨k, x⟩ := c
    rw [wfFrom_cons] at hm
    simp only [read, show a ≠ k by omega, if_false]
    exact ih hm.2.2.2

/-- Two lists in canonical form that read alike at every key are the same list. -/
theorem ext_of_wf {limit : Nat} (m m' : List (Nat × BitVec n)) :
    ∀ lo, wfFrom limit lo m = true → wfFrom limit lo m' = true → (∀ a, read a m = read a m') → m = m' := by
  induction m generalizing m' with
  | nil =>
    intro lo _ h' he
    cases m' with
    | nil => rfl
    | cons c rest =>
      obtain ⟨k, x⟩ := c
      have := he k
      rw [wfFrom_cons] at h'
      simp [read] at this
      exact absurd this.symm h'.2.2.1
  | cons c rest ih =>
    obtain ⟨k, x⟩ := c
    intro lo h h' he
    cases m' with
    | nil =>
      have := he k
      rw [wfFrom_cons] at h
      simp [read] at this
      exact absurd this h.2.2.1
    | cons c' rest' =>
      obtain ⟨k', x'⟩ := c'
      have hc := (wfFrom_cons ..).1 h
      have hc' := (wfFrom_cons ..).1 h'
      have hk : k = k' := by
        by_contra hne
        rcases Nat.lt_or_gt_of_ne hne with hlt | hlt
        · have := he k
          simp only [read, if_true, hne, if_false] at this
          rw [read_of_lt rest' hc'.2.2.2 (by omega)] at this
          exact hc.2.2.1 this
        · have := he k'
          simp only [read, if_true, Ne.symm hne, if_false] at this
          rw [read_of_lt rest hc.2.2.2 (by omega)] at this
          exact hc'.2.2.1 this.symm
      subst hk
      have hx : x = x' := by simpa [read] using he k
      subst hx
      rw [ih rest' (k + 1) hc.2.2.2 hc'.2.2.2]
      intro a
      by_cases ha : a = k
      · subst ha
        rw [read_of_lt rest hc.2.2.2 (by omega), read_of_lt rest' hc'.2.2.2 (by omega)]
      · simpa [read, ha] using he a

end Cells

/-! Memory. -/

namespace Memory

theorem wf_nil : Memory.wf [] = true := rfl

@[simp] theorem byte_setByte_same (m : Memory) (a : Short) (v : Byte) : Memory.byte (Memory.setByte m a v) a = v :=
  Cells.read_write_same ..

theorem byte_setByte (m : Memory) (a b : Short) (v : Byte) :
    Memory.byte (Memory.setByte m a v) b = if b = a then v else Memory.byte m b := by
  unfold Memory.byte Memory.setByte
  rw [Cells.read_write]
  simp only [BitVec.toNat_inj]

theorem byte_setByte_other {a b : Short} (h : b ≠ a) (m : Memory) (v : Byte) :
    Memory.byte (Memory.setByte m a v) b = Memory.byte m b := by
  rw [byte_setByte, if_neg h]

/-- Storing a byte keeps memory's canonical form. -/
theorem wf_setByte {m : Memory} (h : Memory.wf m = true) (a : Short) (v : Byte) :
    Memory.wf (Memory.setByte m a v) = true :=
  Cells.wfFrom_write a.isLt v h

/-- `MemWrite` keeps memory's canonical form. -/
theorem wf_write {m : Memory} (h : Memory.wf m = true) (a v : Short) (w : Width) :
    Memory.wf (Memory.write m a v w) = true := by
  cases w
  · exact wf_setByte h ..
  · exact wf_setByte (wf_setByte h ..) ..

/-- Storing a list of bytes keeps memory's canonical form. -/
theorem wf_setBytes (l : List Byte) : ∀ {m : Memory} (_ : Memory.wf m = true) (a : Short),
    Memory.wf (Memory.setBytes m a l) = true := by
  induction l with
  | nil => exact fun h _ => h
  | cons v rest ih => exact fun h a => ih (wf_setByte h a v) (a + 1)

/-- Every byte after a `MemWrite`: the low byte at `a + 1` wins over the high byte at `a`, which differ. -/
theorem byte_write (m : Memory) (a v b : Short) (w : Width) :
    Memory.byte (Memory.write m a v w) b =
      match w with
      | .byte => if b = a then loByte v else Memory.byte m b
      | .short => if b = a + 1 then loByte v else if b = a then hiByte v else Memory.byte m b := by
  cases w <;> simp [Memory.write, byte_setByte]

/-- Equal contents are equal memories. -/
theorem ext_of_wf {m m' : Memory} (h : Memory.wf m = true) (h' : Memory.wf m' = true)
    (he : ∀ a : Short, Memory.byte m a = Memory.byte m' a) : m = m' := by
  refine Cells.ext_of_wf m m' 0 h h' fun a => ?_
  by_cases ha : a < Params.memSize
  · have := he (BitVec.ofNat 16 a)
    simpa [Memory.byte, Nat.mod_eq_of_lt (show a < 65536 from ha)] using this
  · rw [Cells.read_of_limit_le m h (by omega), Cells.read_of_limit_le m' h' (by omega)]

end Memory

end Sys2Proof.Machine
end

