-- ==== Sys2Proof/Laws/State.lean ====
section
/-! SUPPORT. One lemma per field and update of State, so that no proof unfolds an update. -/

namespace Sys2Proof.Machine

/-! `setStack` -/

@[simp] theorem stack_setStack_same (s : State) (i : StackId) (S : Stack) : (s.setStack i S).stack i = S := by
  cases i <;> rfl

theorem stack_setStack_other (s : State) {i j : StackId} (S : Stack) (h : j ≠ i) :
    (s.setStack i S).stack j = s.stack j := by
  cases i <;> cases j <;> first | rfl | exact absurd rfl h

@[simp] theorem setStack_setStack (s : State) (i : StackId) (S T : Stack) :
    (s.setStack i S).setStack i T = s.setStack i T := by
  cases i <;> rfl

@[simp] theorem setStack_stack (s : State) (i : StackId) : s.setStack i (s.stack i) = s := by
  cases i <;> rfl

theorem setStack_comm (s : State) {i j : StackId} (S T : Stack) (h : i ≠ j) :
    (s.setStack i S).setStack j T = (s.setStack j T).setStack i S := by
  cases i <;> cases j <;> first | rfl | exact absurd rfl h

@[simp] theorem setStack_mem (s : State) (i : StackId) (S : Stack) : (s.setStack i S).mem = s.mem := by cases i <;> rfl
@[simp] theorem setStack_pc (s : State) (i : StackId) (S : Stack) : (s.setStack i S).pc = s.pc := by cases i <;> rfl
@[simp] theorem setStack_devs (s : State) (i : StackId) (S : Stack) : (s.setStack i S).devs = s.devs := by cases i <;> rfl
@[simp] theorem setStack_lastFault (s : State) (i : StackId) (S : Stack) : (s.setStack i S).lastFault = s.lastFault := by cases i <;> rfl
@[simp] theorem setStack_ppu (s : State) (i : StackId) (S : Stack) : (s.setStack i S).ppu = s.ppu := by cases i <;> rfl
@[simp] theorem setStack_running (s : State) (i : StackId) (S : Stack) : (s.setStack i S).running = s.running := by cases i <;> rfl
@[simp] theorem setStack_result (s : State) (i : StackId) (S : Stack) : (s.setStack i S).result = s.result := by cases i <;> rfl
@[simp] theorem setStack_nibble (s : State) (i : StackId) (S : Stack) : (s.setStack i S).nibble = s.nibble := by cases i <;> rfl
@[simp] theorem setStack_pcPolicy (s : State) (i : StackId) (S : Stack) : (s.setStack i S).pcPolicy = s.pcPolicy := by cases i <;> rfl
@[simp] theorem setStack_loadWindow (s : State) (i : StackId) (S : Stack) : (s.setStack i S).loadWindow = s.loadWindow := by cases i <;> rfl
@[simp] theorem setStack_hostIn (s : State) (i : StackId) (S : Stack) : (s.setStack i S).hostIn = s.hostIn := by cases i <;> rfl
@[simp] theorem setStack_talkIn (s : State) (i : StackId) (S : Stack) : (s.setStack i S).talkIn = s.talkIn := by cases i <;> rfl
@[simp] theorem setStack_draws (s : State) (i : StackId) (S : Stack) : (s.setStack i S).draws = s.draws := by cases i <;> rfl

@[simp] theorem setStack_dev (s : State) (i : StackId) (S : Stack) (p : Nibble) : (s.setStack i S).dev p = s.dev p := by
  cases i <;> rfl

/-! `setDev` -/

@[simp] theorem dev_setDev_same (s : State) (p : Nibble) (d : Device) : (s.setDev p d).dev p = d := by
  simp [State.dev, State.setDev]

theorem dev_setDev_other (s : State) {p q : Nibble} (d : Device) (h : q ≠ p) : (s.setDev p d).dev q = s.dev q := by
  have : p.toNat ≠ q.toNat := fun e => h (BitVec.eq_of_toNat_eq e.symm)
  simp [State.dev, State.setDev, this]

theorem dev_setDev (s : State) (p q : Nibble) (d : Device) :
    (s.setDev p d).dev q = if q = p then d else s.dev q := by
  split
  · next h => rw [h, dev_setDev_same]
  · next h => exact dev_setDev_other s d h

@[simp] theorem setDev_stack (s : State) (p : Nibble) (d : Device) (i : StackId) :
    (s.setDev p d).stack i = s.stack i := by
  cases i <;> rfl

theorem setDev_setStack (s : State) (p : Nibble) (d : Device) (i : StackId) (S : Stack) :
    (s.setStack i S).setDev p d = (s.setDev p d).setStack i S := by
  cases i <;> rfl

@[simp] theorem setDev_mem (s : State) (p : Nibble) (d : Device) : (s.setDev p d).mem = s.mem := rfl
@[simp] theorem setDev_pc (s : State) (p : Nibble) (d : Device) : (s.setDev p d).pc = s.pc := rfl
@[simp] theorem setDev_wst (s : State) (p : Nibble) (d : Device) : (s.setDev p d).wst = s.wst := rfl
@[simp] theorem setDev_rst (s : State) (p : Nibble) (d : Device) : (s.setDev p d).rst = s.rst := rfl
@[simp] theorem setDev_lastFault (s : State) (p : Nibble) (d : Device) : (s.setDev p d).lastFault = s.lastFault := rfl
@[simp] theorem setDev_ppu (s : State) (p : Nibble) (d : Device) : (s.setDev p d).ppu = s.ppu := rfl
@[simp] theorem setDev_running (s : State) (p : Nibble) (d : Device) : (s.setDev p d).running = s.running := rfl
@[simp] theorem setDev_result (s : State) (p : Nibble) (d : Device) : (s.setDev p d).result = s.result := rfl
@[simp] theorem setDev_nibble (s : State) (p : Nibble) (d : Device) : (s.setDev p d).nibble = s.nibble := rfl
@[simp] theorem setDev_pcPolicy (s : State) (p : Nibble) (d : Device) : (s.setDev p d).pcPolicy = s.pcPolicy := rfl
@[simp] theorem setDev_loadWindow (s : State) (p : Nibble) (d : Device) : (s.setDev p d).loadWindow = s.loadWindow := rfl
@[simp] theorem setDev_hostIn (s : State) (p : Nibble) (d : Device) : (s.setDev p d).hostIn = s.hostIn := rfl
@[simp] theorem setDev_talkIn (s : State) (p : Nibble) (d : Device) : (s.setDev p d).talkIn = s.talkIn := rfl
@[simp] theorem setDev_draws (s : State) (p : Nibble) (d : Device) : (s.setDev p d).draws = s.draws := rfl

/-! Registers of a port -/

@[simp] theorem get_put_same (d : Device) (l : Nibble) (v : Byte) : (d.put l v).get l = v := by
  simp [Device.get, Device.put]

theorem get_put_other (d : Device) {l k : Nibble} (v : Byte) (h : k ≠ l) : (d.put l v).get k = d.get k := by
  have : l.toNat ≠ k.toNat := fun e => h (BitVec.eq_of_toNat_eq e.symm)
  simp [Device.get, Device.put, this]

theorem get_put (d : Device) (l k : Nibble) (v : Byte) : (d.put l v).get k = if k = l then v else d.get k := by
  split
  · next h => rw [h, get_put_same]
  · next h => exact get_put_other d v h

@[simp] theorem put_vector (d : Device) (l : Nibble) (v : Byte) : (d.put l v).vector = d.vector := rfl

/-! Stack updates -/

@[simp] theorem push8_kptr (S : Stack) (b : Byte) : (S.push8 b).kptr = S.kptr := rfl
@[simp] theorem push8_fault (S : Stack) (b : Byte) : (S.push8 b).fault = S.fault := rfl
@[simp] theorem push8_ptr (S : Stack) (b : Byte) : (S.push8 b).ptr = S.ptr + 1#8 := rfl

/-! Fault codes -/

theorem faultCode_injective {f g : Option FaultKind} (h : faultCode f = faultCode g) : f = g := by
  rcases f with _ | _ | _ | _ <;> rcases g with _ | _ | _ | _ <;> first | rfl | exact absurd h (by decide)

/-- A report's numbers tell the whole report. -/
theorem codes_injective {r q : FaultReport} (h : r.codes = q.codes) : r = q := by
  obtain ⟨k, i, op, pc⟩ := r
  obtain ⟨k', i', op', pc'⟩ := q
  simp only [FaultReport.codes, Prod.mk.injEq] at h
  obtain ⟨hk, hi, ho, hp⟩ := h
  obtain rfl : k = k' := Option.some.inj (faultCode_injective (f := some k) (g := some k') hk)
  obtain rfl : i = i' := by cases i <;> cases i' <;> first | rfl | exact absurd hi (by decide)
  rw [BitVec.eq_of_toNat_eq ho, BitVec.eq_of_toNat_eq hp]

/-! Fault entry, evaluation entry and exit -/

@[simp] theorem takeFault_mem (i : StackId) (k : FaultKind) (op : Byte) (s : State) : (takeFault i k op s).mem = s.mem := rfl
@[simp] theorem takeFault_wst (i : StackId) (k : FaultKind) (op : Byte) (s : State) : (takeFault i k op s).wst = s.wst := rfl
@[simp] theorem takeFault_rst (i : StackId) (k : FaultKind) (op : Byte) (s : State) : (takeFault i k op s).rst = s.rst := rfl
@[simp] theorem takeFault_devs (i : StackId) (k : FaultKind) (op : Byte) (s : State) : (takeFault i k op s).devs = s.devs := rfl
@[simp] theorem takeFault_lastFault (i : StackId) (k : FaultKind) (op : Byte) (s : State) : (takeFault i k op s).lastFault = some ⟨k, i, op, s.pc⟩ := rfl
@[simp] theorem takeFault_ppu (i : StackId) (k : FaultKind) (op : Byte) (s : State) : (takeFault i k op s).ppu = s.ppu := rfl
@[simp] theorem takeFault_running (i : StackId) (k : FaultKind) (op : Byte) (s : State) : (takeFault i k op s).running = false := rfl
@[simp] theorem takeFault_result (i : StackId) (k : FaultKind) (op : Byte) (s : State) : (takeFault i k op s).result = some false := rfl
@[simp] theorem takeFault_nibble (i : StackId) (k : FaultKind) (op : Byte) (s : State) : (takeFault i k op s).nibble = s.nibble := rfl
@[simp] theorem takeFault_pcPolicy (i : StackId) (k : FaultKind) (op : Byte) (s : State) : (takeFault i k op s).pcPolicy = s.pcPolicy := rfl
@[simp] theorem takeFault_loadWindow (i : StackId) (k : FaultKind) (op : Byte) (s : State) : (takeFault i k op s).loadWindow = s.loadWindow := rfl
@[simp] theorem takeFault_hostIn (i : StackId) (k : FaultKind) (op : Byte) (s : State) : (takeFault i k op s).hostIn = s.hostIn := rfl
@[simp] theorem takeFault_talkIn (i : StackId) (k : FaultKind) (op : Byte) (s : State) : (takeFault i k op s).talkIn = s.talkIn := rfl
@[simp] theorem takeFault_draws (i : StackId) (k : FaultKind) (op : Byte) (s : State) : (takeFault i k op s).draws = s.draws := rfl
@[simp] theorem takeFault_pc_leave (i : StackId) (k : FaultKind) (op : Byte) (s : State) (h : s.pcPolicy = .leave) :
    (takeFault i k op s).pc = s.pc := by simp [takeFault, h]
@[simp] theorem takeFault_pc_zero (i : StackId) (k : FaultKind) (op : Byte) (s : State) (h : s.pcPolicy = .zero) :
    (takeFault i k op s).pc = 0#16 := by simp [takeFault, h]
@[simp] theorem takeFault_stack (i j : StackId) (k : FaultKind) (op : Byte) (s : State) :
    (takeFault i k op s).stack j = s.stack j := by cases j <;> rfl

@[simp] theorem enterEvaluation_mem (v : Short) (s : State) : (enterEvaluation v s).mem = s.mem := rfl
@[simp] theorem enterEvaluation_pc (v : Short) (s : State) : (enterEvaluation v s).pc = v := rfl
@[simp] theorem enterEvaluation_devs (v : Short) (s : State) : (enterEvaluation v s).devs = s.devs := rfl
@[simp] theorem enterEvaluation_lastFault (v : Short) (s : State) : (enterEvaluation v s).lastFault = s.lastFault := rfl
@[simp] theorem enterEvaluation_ppu (v : Short) (s : State) : (enterEvaluation v s).ppu = s.ppu := rfl
@[simp] theorem enterEvaluation_running (v : Short) (s : State) : (enterEvaluation v s).running = true := rfl
@[simp] theorem enterEvaluation_result (v : Short) (s : State) : (enterEvaluation v s).result = none := rfl
@[simp] theorem enterEvaluation_nibble (v : Short) (s : State) : (enterEvaluation v s).nibble = s.nibble := rfl
@[simp] theorem enterEvaluation_pcPolicy (v : Short) (s : State) : (enterEvaluation v s).pcPolicy = s.pcPolicy := rfl
@[simp] theorem enterEvaluation_loadWindow (v : Short) (s : State) : (enterEvaluation v s).loadWindow = s.loadWindow := rfl
@[simp] theorem enterEvaluation_hostIn (v : Short) (s : State) : (enterEvaluation v s).hostIn = s.hostIn := rfl
@[simp] theorem enterEvaluation_talkIn (v : Short) (s : State) : (enterEvaluation v s).talkIn = s.talkIn := rfl
@[simp] theorem enterEvaluation_draws (v : Short) (s : State) : (enterEvaluation v s).draws = s.draws := rfl
@[simp] theorem enterEvaluation_wst_fault (v : Short) (s : State) : (enterEvaluation v s).wst.fault = none := rfl
@[simp] theorem enterEvaluation_rst_fault (v : Short) (s : State) : (enterEvaluation v s).rst.fault = none := rfl

@[simp] theorem endEvaluation_mem (s : State) : (endEvaluation s).mem = s.mem := rfl
@[simp] theorem endEvaluation_pc (s : State) : (endEvaluation s).pc = s.pc := rfl
@[simp] theorem endEvaluation_wst (s : State) : (endEvaluation s).wst = s.wst := rfl
@[simp] theorem endEvaluation_rst (s : State) : (endEvaluation s).rst = s.rst := rfl
@[simp] theorem endEvaluation_devs (s : State) : (endEvaluation s).devs = s.devs := rfl
@[simp] theorem endEvaluation_lastFault (s : State) : (endEvaluation s).lastFault = s.lastFault := rfl
@[simp] theorem endEvaluation_ppu (s : State) : (endEvaluation s).ppu = s.ppu := rfl
@[simp] theorem endEvaluation_running (s : State) : (endEvaluation s).running = false := rfl
@[simp] theorem endEvaluation_result (s : State) : (endEvaluation s).result = some true := rfl
@[simp] theorem endEvaluation_nibble (s : State) : (endEvaluation s).nibble = s.nibble := rfl
@[simp] theorem endEvaluation_pcPolicy (s : State) : (endEvaluation s).pcPolicy = s.pcPolicy := rfl
@[simp] theorem endEvaluation_loadWindow (s : State) : (endEvaluation s).loadWindow = s.loadWindow := rfl
@[simp] theorem endEvaluation_hostIn (s : State) : (endEvaluation s).hostIn = s.hostIn := rfl
@[simp] theorem endEvaluation_talkIn (s : State) : (endEvaluation s).talkIn = s.talkIn := rfl
@[simp] theorem endEvaluation_draws (s : State) : (endEvaluation s).draws = s.draws := rfl

end Sys2Proof.Machine
end

