-- ==== Sys2Proof/Laws/Ops.lean ====
section
/-! SUPPORT. What the shared operations do, once each: a pop, a push, and the frame of an instruction, in the closed
forms of Sys2Proof/Safety.lean. -/

namespace Sys2Proof.Machine

/-! ## Sequencing of micro-ops -/

theorem bind_ok {α β : Type} {x : MicroOp α} {f : α → MicroOp β} {s t : State} {a : α} (h : x s = .ok a t) :
    (x >>= f) s = f a t := by
  simp only [bind, EStateM.bind, h]

theorem bind_error {α β : Type} {x : MicroOp α} {f : α → MicroOp β} {s t : State} {e : Stop} (h : x s = .error e t) :
    (x >>= f) s = .error e t := by
  simp only [bind, EStateM.bind, h]

@[simp] theorem getPc_bind {α : Type} (f : Short → MicroOp α) (s : State) : (getPc >>= f) s = f s.pc s := rfl

@[simp] theorem setPc_run (a : Short) (s : State) : setPc a s = .ok () { s with pc := a } := rfl

@[simp] theorem memRead_bind {α : Type} (a : Short) (w : Width) (f : Short → MicroOp α) (s : State) :
    (memRead a w >>= f) s = f (s.mem.read a w) s := rfl

@[simp] theorem memWrite_run (a : Short) (w : Width) (v : Short) (s : State) :
    memWrite a w v s = .ok () { s with mem := s.mem.write a v w } := rfl

@[simp] theorem pure_run {α : Type} (a : α) (s : State) : (pure a : MicroOp α) s = .ok a s := rfl

theorem bind_assoc_run {α β γ : Type} (x : MicroOp α) (f : α → MicroOp β) (g : β → MicroOp γ) (s : State) :
    ((x >>= f) >>= g) s = (x >>= fun a => f a >>= g) s := by
  simp only [bind, EStateM.bind]
  cases x s <;> rfl

/-! ## Modes -/

@[simp] theorem ctx_src (m : Mode) : m.ctx.src = m.src := rfl
@[simp] theorem ctx_dst (m : Mode) : m.ctx.dst = m.dst := rfl
@[simp] theorem ctx_keep (m : Mode) : m.ctx.keep = m.keep := rfl
@[simp] theorem ctx_width (m : Mode) : m.ctx.width = m.width := rfl

theorem dst_ne_src (m : Mode) : m.dst ≠ m.src := by
  obtain ⟨k, r, s⟩ := m
  cases r <;> simp [Mode.src, Mode.dst]

/-! ## Pops -/

theorem popped_zero_false (S : Stack) : S.popped false 0 = S := by
  simp [Stack.popped]

theorem popped_zero_true (S : Stack) : S.popped true 0 = { S with kptr := S.ptr } := by
  simp [Stack.popped]

/-- A pop of more bytes than there are leaves the stack as a pop of all of them does. -/
theorem popped_of_le {S : Stack} {k : Bool} {n n' : Nat} (h : S.ptr.toNat ≤ n) (h' : S.ptr.toNat ≤ n') :
    S.popped k n = S.popped k n' := by
  simp [Stack.popped, Nat.sub_eq_zero_of_le h, Nat.sub_eq_zero_of_le h']

@[simp] theorem popped_fault (S : Stack) (k : Bool) (n : Nat) : (S.popped k n).fault = S.fault := by
  cases k <;> rfl

@[simp] theorem popped_dat (S : Stack) (k : Bool) (n : Nat) : (S.popped k n).dat = S.dat := by
  cases k <;> rfl

theorem popped_ptr (S : Stack) (k : Bool) (n : Nat) :
    (S.popped k n).ptr.toNat = if k then S.ptr.toNat else S.ptr.toNat - n := by
  have := S.ptr.isLt
  cases k
  · simp [Stack.popped]; omega
  · rfl

/-- The state inside a step after `n` bytes of its source stack were popped. -/
def midPops (m : Mode) (s : State) (n : Nat) : State := s.setStack m.src ((s.stack m.src).popped m.keep n)

theorem beginStep_eq_midPops (m : Mode) (s : State) : beginStep m.ctx s = midPops m s 0 := by
  unfold beginStep midPops
  cases h : m.keep
  · simp [h, popped_zero_false]
  · simp [h, popped_zero_true]

theorem pop8_midPops (m : Mode) (s : State) (n : Nat) :
    pop8 m.ctx (midPops m s n) =
      if n < (s.stack m.src).ptr.toNat then .ok ((s.stack m.src).byteAt n) (midPops m s (n + 1))
      else .error .fault (s.setStack m.src (((s.stack m.src).popped m.keep n).withFault .underflow)) := by
  have hlt := (s.stack m.src).ptr.isLt
  generalize hS : s.stack m.src = S at hlt ⊢
  unfold pop8 midPops
  have key : (BitVec.ofNat 8 (S.ptr.toNat - n) = 0#8) ↔ ¬ n < S.ptr.toNat := by
    rw [← BitVec.toNat_inj, BitVec.toNat_ofNat, BitVec.toNat_ofNat]; omega
  have sub : n < S.ptr.toNat → BitVec.ofNat 8 (S.ptr.toNat - n) - 1#8 = BitVec.ofNat 8 (S.ptr.toNat - (n + 1)) := by
    intro h; rw [← BitVec.toNat_inj]; simp; omega
  by_cases h : n < S.ptr.toNat
  · have hk : ¬ (BitVec.ofNat 8 (S.ptr.toNat - n) = 0#8) := fun e => (key.1 e) h
    cases hkeep : m.keep <;>
      (simp [hS, hkeep, Stack.popped, hk, h, Stack.byteAt, sub h]
       congr 1
       omega)
  · have hk : BitVec.ofNat 8 (S.ptr.toNat - n) = 0#8 := key.2 h
    cases hkeep : m.keep <;>
      simp [hS, hkeep, Stack.popped, hk, h, raise, Stack.withFault]

/-- The state in which a step is reported that ran out of bytes when it wanted `n` in all. -/
def starvedAt (m : Mode) (s : State) (n : Nat) : State :=
  s.setStack m.src (((s.stack m.src).popped m.keep n).withFault .underflow)

theorem starvedAt_of_lt {m : Mode} {s : State} {n n' : Nat} (h : (s.stack m.src).ptr.toNat < n)
    (h' : (s.stack m.src).ptr.toNat < n') : starvedAt m s n = starvedAt m s n' := by
  unfold starvedAt
  rw [popped_of_le (Nat.le_of_lt h) (Nat.le_of_lt h')]

/-- What a pop does in a step after `n` bytes were popped (R79, R80, R81). -/
theorem pop_bind {α : Type} (m : Mode) (s : State) (n : Nat) (w : Width) (f : Short → MicroOp α) :
    (pop m.ctx w >>= f) (midPops m s n) =
      if n + w.bytes ≤ (s.stack m.src).ptr.toNat then f ((s.stack m.src).item w n) (midPops m s (n + w.bytes))
      else .error .fault (starvedAt m s (n + w.bytes)) := by
  unfold starvedAt
  cases w with
  | byte =>
    by_cases h : n < (s.stack m.src).ptr.toNat
    · have h8 := pop8_midPops m s n
      rw [if_pos h] at h8
      rw [if_pos (show n + Width.bytes .byte ≤ _ by simp only [Width.bytes]; omega)]
      simp only [pop, bind_assoc_run, bind_ok h8]
      rfl
    · have h8 := pop8_midPops m s n
      rw [if_neg h] at h8
      rw [if_neg (show ¬ n + Width.bytes .byte ≤ _ by simp only [Width.bytes]; omega)]
      simp only [pop, bind_assoc_run, bind_error h8]
      rw [popped_of_le (n' := n + Width.bytes .byte) (by omega) (by omega)]
  | short =>
    have h1 := pop8_midPops m s n
    have h2 := pop8_midPops m s (n + 1)
    by_cases h : n < (s.stack m.src).ptr.toNat
    · rw [if_pos h] at h1
      by_cases h' : n + 1 < (s.stack m.src).ptr.toNat
      · rw [if_pos h'] at h2
        rw [if_pos (show n + Width.bytes .short ≤ _ by simp only [Width.bytes]; omega)]
        simp only [pop, bind_assoc_run, bind_ok h1, bind_ok h2]
        rfl
      · rw [if_neg h'] at h2
        rw [if_neg (show ¬ n + Width.bytes .short ≤ _ by simp only [Width.bytes]; omega)]
        simp only [pop, bind_assoc_run, bind_ok h1, bind_error h2]
        rw [popped_of_le (n' := n + Width.bytes .short) (by omega) (by simp only [Width.bytes]; omega)]
    · rw [if_neg h] at h1
      rw [if_neg (show ¬ n + Width.bytes .short ≤ _ by simp only [Width.bytes]; omega)]
      simp only [pop, bind_assoc_run, bind_error h1]
      rw [popped_of_le (n' := n + Width.bytes .short) (by omega) (by simp only [Width.bytes]; omega)]

theorem popW_bind {α : Type} (m : Mode) (s : State) (n : Nat) (f : Short → MicroOp α) :
    (popW m.ctx >>= f) (midPops m s n) =
      if n + m.width.bytes ≤ (s.stack m.src).ptr.toNat then
        f ((s.stack m.src).item m.width n) (midPops m s (n + m.width.bytes))
      else .error .fault (starvedAt m s (n + m.width.bytes)) :=
  pop_bind m s n m.width f

/-- Two pops in a row, of `n` and up to `n'` bytes, starve as one of `n'` bytes. -/
theorem ite_starvedAt {α : Type} (m : Mode) (s : State) {n n' : Nat} (h : n ≤ n') (x : EStateM.Result Stop State α) :
    (if n ≤ (s.stack m.src).ptr.toNat then
      (if n' ≤ (s.stack m.src).ptr.toNat then x else .error .fault (starvedAt m s n'))
      else .error .fault (starvedAt m s n)) =
    if n' ≤ (s.stack m.src).ptr.toNat then x else .error .fault (starvedAt m s n') := by
  by_cases h1 : n' ≤ (s.stack m.src).ptr.toNat
  · rw [if_pos (h.trans h1)]
  · by_cases h2 : n ≤ (s.stack m.src).ptr.toNat
    · rw [if_pos h2]
    · rw [if_neg h2, if_neg h1, starvedAt_of_lt (Nat.not_le.1 h2) (Nat.not_le.1 h1)]

/-- The first pop of a step. -/
theorem pop_first {α : Type} (m : Mode) (s : State) (w : Width) (f : Short → MicroOp α) :
    (pop m.ctx w >>= f) (midPops m s 0) =
      if w.bytes ≤ (s.stack m.src).ptr.toNat then f ((s.stack m.src).item w 0) (midPops m s w.bytes)
      else .error .fault (starvedAt m s w.bytes) := by
  simpa using pop_bind m s 0 w f

/-- The first two pops of a step, of widths `w` and `w'`. -/
theorem pop_two {α : Type} (m : Mode) (s : State) (w w' : Width) (f : Short → Short → MicroOp α) :
    (pop m.ctx w >>= fun a => pop m.ctx w' >>= fun b => f a b) (midPops m s 0) =
      if w.bytes + w'.bytes ≤ (s.stack m.src).ptr.toNat then
        f ((s.stack m.src).item w 0) ((s.stack m.src).item w' w.bytes) (midPops m s (w.bytes + w'.bytes))
      else .error .fault (starvedAt m s (w.bytes + w'.bytes)) := by
  rw [pop_first]
  simp only [pop_bind]
  exact ite_starvedAt m s (Nat.le_add_right _ _) _

/-- The first three pops of a step. -/
theorem pop_three {α : Type} (m : Mode) (s : State) (w w' w'' : Width) (f : Short → Short → Short → MicroOp α) :
    (pop m.ctx w >>= fun a => pop m.ctx w' >>= fun b => pop m.ctx w'' >>= fun c => f a b c) (midPops m s 0) =
      if w.bytes + w'.bytes + w''.bytes ≤ (s.stack m.src).ptr.toNat then
        f ((s.stack m.src).item w 0) ((s.stack m.src).item w' w.bytes)
          ((s.stack m.src).item w'' (w.bytes + w'.bytes)) (midPops m s (w.bytes + w'.bytes + w''.bytes))
      else .error .fault (starvedAt m s (w.bytes + w'.bytes + w''.bytes)) := by
  rw [pop_two m s w w' fun a b => pop m.ctx w'' >>= fun c => f a b c]
  simp only [pop_bind]
  exact ite_starvedAt m s (Nat.le_add_right _ _) _

/-! ## Pushes -/

/-- Push the bytes of a list, in order. -/
def pushList (i : StackId) : List Byte → MicroOp Unit
  | [] => pure ()
  | b :: rest => do
    push8 i b
    pushList i rest

theorem push_eq_pushList (i : StackId) (w : Width) (v : Short) : push i w v = pushList i (itemBytes w v) := by
  funext s
  cases w
  · simp only [push, pushList, itemBytes, bind, EStateM.bind]
    cases push8 i (loByte v) s <;> rfl
  · simp only [push, pushList, itemBytes, bind, EStateM.bind]
    cases push8 i (hiByte v) s with
    | error => rfl
    | ok _ t => cases h : push8 i (loByte v) t <;> simp [h]

/-- Pushes in a row are one push of all their bytes. -/
theorem pushList_append (i : StackId) (l l' : List Byte) :
    (pushList i l >>= fun _ => pushList i l') = pushList i (l ++ l') := by
  funext s
  induction l generalizing s with
  | nil => rfl
  | cons b rest ih =>
    simp only [pushList, List.cons_append, bind_assoc_run]
    cases h : push8 i b s with
    | error e t => rw [bind_error h, bind_error h]
    | ok u t => rw [bind_ok h, bind_ok h]; exact ih t

theorem pushList_append_bind {α : Type} (i : StackId) (l l' : List Byte) (f : Unit → MicroOp α) :
    (pushList i l >>= fun _ => pushList i l' >>= f) = (pushList i (l ++ l') >>= f) := by
  funext s
  rw [← pushList_append, bind_assoc_run]

theorem pushList_pure (i : StackId) (l : List Byte) : (pushList i l >>= fun _ => pure ()) = pushList i l := by
  funext s
  simp only [bind, EStateM.bind]
  cases pushList i l s <;> rfl

theorem pushed_nil (S : Stack) : S.pushed [] = S := by
  cases S
  simp [Stack.pushed]

@[simp] theorem pushed_fault (S : Stack) (l : List Byte) : (S.pushed l).fault = S.fault := by
  simp only [Stack.pushed]
@[simp] theorem pushed_kptr (S : Stack) (l : List Byte) : (S.pushed l).kptr = S.kptr := by
  simp only [Stack.pushed]

theorem pushed_ptr (S : Stack) (l : List Byte) (h : S.ptr.toNat + l.length ≤ 255) :
    (S.pushed l).ptr.toNat = S.ptr.toNat + l.length := by
  simp [Stack.pushed]; omega

theorem pushed_cons (S : Stack) (b : Byte) (l : List Byte) (h : S.ptr.toNat < 255) :
    (S.push8 b).pushed l = S.pushed (b :: l) := by
  have hp : (S.ptr + 1#8).toNat = S.ptr.toNat + 1 := by rw [BitVec.toNat_add]; simp; omega
  obtain ⟨dat, ptr, kptr, fault⟩ := S
  simp only [Stack.push8, Stack.pushed, Stack.mk.injEq, and_true] at hp h ⊢
  constructor
  · ext i hi
    simp only [Vector.getElem_ofFn, Vector.getElem_set, hp, List.length_cons]
    rcases Nat.lt_trichotomy i ptr.toNat with hlt | heq | hgt
    · simp [show ¬ ptr.toNat + 1 ≤ i by omega, show ¬ ptr.toNat ≤ i by omega, show ptr.toNat ≠ i by omega]
    · subst heq; simp
    · have : i - ptr.toNat = (i - (ptr.toNat + 1)) + 1 := by omega
      simp [show ptr.toNat + 1 ≤ i by omega, show ptr.toNat ≤ i by omega, show ptr.toNat ≠ i by omega, this]
  · rw [hp]; congr 1; simp; omega

/-- What a push of bytes does (R78, R81): it completes, or it writes the bytes that fit and raises Overflow. -/
theorem pushList_run (i : StackId) (l : List Byte) (s : State) :
    pushList i l s =
      if (s.stack i).ptr.toNat + l.length ≤ 255 then .ok () (s.setStack i ((s.stack i).pushed l))
      else .error .fault
        (s.setStack i (((s.stack i).pushed (l.take (255 - (s.stack i).ptr.toNat))).withFault .overflow)) := by
  induction l generalizing s with
  | nil =>
    have := (s.stack i).ptr.isLt
    rw [if_pos (by simp; omega), pushed_nil, setStack_stack]
    rfl
  | cons b rest ih =>
    have hlt := (s.stack i).ptr.isLt
    simp only [pushList]
    by_cases hfull : (s.stack i).ptr = Params.stackDepth
    · have h255 : (s.stack i).ptr.toNat = 255 := by rw [hfull]; rfl
      have h8 : push8 i b s = .error .fault (s.setStack i { s.stack i with fault := some .overflow }) := by
        simp [push8, hfull, raise]
      rw [bind_error h8, if_neg (by simp [h255])]
      simp only [h255, Nat.sub_self, List.take_zero, pushed_nil]
      rfl
    · have hne : (s.stack i).ptr.toNat ≠ 255 := fun e => hfull (BitVec.eq_of_toNat_eq e)
      have h8 : push8 i b s = .ok () (s.setStack i ((s.stack i).push8 b)) := by
        simp [push8, hfull]
      have hp : ((s.stack i).push8 b).ptr.toNat = (s.stack i).ptr.toNat + 1 := by
        rw [push8_ptr, BitVec.toNat_add]; simp; omega
      rw [bind_ok h8, ih]
      simp only [stack_setStack_same, setStack_setStack, hp, List.length_cons]
      have ht : 255 - (s.stack i).ptr.toNat = (255 - ((s.stack i).ptr.toNat + 1)) + 1 := by omega
      by_cases hfit : (s.stack i).ptr.toNat + (rest.length + 1) ≤ 255
      · rw [if_pos (by omega), if_pos hfit, pushed_cons _ _ _ (by omega)]
      · rw [if_neg (by omega), if_neg hfit, ht, List.take_succ_cons, ← pushed_cons _ _ _ (by omega)]

/-! ## The frame of an instruction -/

theorem settle_clear (op : Byte) {s : State} (h : s.faultsClear) : settle op s = .next s := by
  simp [settle, h.1, h.2]

/-- The check after a fault raised on stack `i` while the fields were clear takes that fault. -/
theorem settle_withFault (op : Byte) (i : StackId) (k : FaultKind) {s : State} (S : Stack) (h : s.faultsClear) :
    settle op (s.setStack i (S.withFault k)) = .next (takeFault i k op (s.setStack i (S.withFault k))) := by
  cases i
  · simp [settle, State.setStack, Stack.withFault]
  · simp [settle, State.setStack, Stack.withFault, h.1]

theorem faultsClear_setStack {s : State} (h : s.faultsClear) (i : StackId) {S : Stack} (hS : S.fault = none) :
    (s.setStack i S).faultsClear := by
  cases i
  · exact ⟨hS, h.2⟩
  · exact ⟨h.1, hS⟩

theorem stack_fault {s : State} (h : s.faultsClear) (i : StackId) : (s.stack i).fault = none := by
  cases i
  · exact h.1
  · exact h.2

theorem faultsClear_midPops {s : State} (h : s.faultsClear) (m : Mode) (n : Nat) : (midPops m s n).faultsClear :=
  faultsClear_setStack h _ (by rw [popped_fault]; exact stack_fault h _)

theorem runOp_eq (m : Mode) (op : BitVec 5) (body : Ctx → MicroOp Unit) (s : State) :
    runOp m op body s =
      match body m.ctx (midPops m s 0) with
      | .ok _ t => settle (m.opcodeByte op) t
      | .error .fault t => settle (m.opcodeByte op) t
      | .error (.refuse r) _ => .refused r := by
  rw [← beginStep_eq_midPops]; rfl

/-- What an instruction does whose body pops the bytes of an effect, pushes its bytes and does its rest: it has that
effect in the sense of `Obeys`. -/
theorem runOp_obeys (m : Mode) (op : BitVec 5) (body : Ctx → MicroOp Unit) (s : State) (e : Effect) (tail : MicroOp Unit)
    (hc : s.faultsClear)
    (hbody : body m.ctx (midPops m s 0) =
      if e.need ≤ (s.stack m.src).ptr.toNat then (pushList e.onto e.push >>= fun _ => tail) (midPops m s e.need)
      else .error .fault (e.starved m s))
    (htail : ∀ t : State, t.faultsClear → t.mem = s.mem → t.pc = s.pc → tail t = .ok () (e.rest t))
    (hrest : ∀ t : State, t.faultsClear → (e.rest t).faultsClear) :
    (e.Fits m s → runOp m op body s = .next (e.apply m s)) ∧
    (e.Starves m s → runOp m op body s = .next (takeFault m.src .underflow (m.opcodeByte op) (e.starved m s))) ∧
    (e.Spills m s → runOp m op body s = .next (takeFault e.onto .overflow (m.opcodeByte op) (e.spilled m s))) := by
  have hmid : midPops m s e.need = e.afterPops m s := rfl
  have hcm := faultsClear_midPops hc m e.need
  refine ⟨fun hf => ?_, fun hs => ?_, fun hs => ?_⟩
  · have hrun := pushList_run e.onto e.push (midPops m s e.need)
    rw [hmid] at hrun hcm
    rw [if_pos hf.2] at hrun
    rw [runOp_eq, hbody, if_pos hf.1, hmid, bind_ok hrun]
    have hct : ((e.afterPops m s).setStack e.onto (((e.afterPops m s).stack e.onto).pushed e.push)).faultsClear :=
      faultsClear_setStack hcm _ (by rw [pushed_fault]; exact stack_fault hcm _)
    rw [htail _ hct (by simp [Effect.afterPops]) (by simp [Effect.afterPops])]
    exact settle_clear _ (hrest _ hct)
  · rw [runOp_eq, hbody, if_neg (Nat.not_le.2 hs)]
    exact settle_withFault _ _ _ _ hc
  · have hrun := pushList_run e.onto e.push (midPops m s e.need)
    rw [hmid] at hrun hcm
    rw [if_neg (Nat.not_le.2 hs.2)] at hrun
    rw [runOp_eq, hbody, if_pos hs.1, hmid, bind_error hrun]
    exact settle_withFault _ _ _ _ hcm

end Sys2Proof.Machine
end

