-- ==== Sys2Proof/Laws/Bus.lean ====
section
/-! SUPPORT. What the device bus and the device bodies do: one lemma per field a body's effect leaves, its closed form,
the induction over a body's reply, and the run of a bus access whose body keeps its contract. -/

namespace Sys2Proof.Machine

/-! ## One effect of a body -/

@[simp] theorem act_wst (p : Nibble) (s : State) (x : TalkAction) : (s.act p x).wst = s.wst := by cases x <;> rfl
@[simp] theorem act_rst (p : Nibble) (s : State) (x : TalkAction) : (s.act p x).rst = s.rst := by cases x <;> rfl
@[simp] theorem act_pc (p : Nibble) (s : State) (x : TalkAction) : (s.act p x).pc = s.pc := by cases x <;> rfl
@[simp] theorem act_lastFault (p : Nibble) (s : State) (x : TalkAction) : (s.act p x).lastFault = s.lastFault := by
  cases x <;> rfl
@[simp] theorem act_running (p : Nibble) (s : State) (x : TalkAction) : (s.act p x).running = s.running := by
  cases x <;> rfl
@[simp] theorem act_result (p : Nibble) (s : State) (x : TalkAction) : (s.act p x).result = s.result := by cases x <;> rfl
@[simp] theorem act_nibble (p : Nibble) (s : State) (x : TalkAction) : (s.act p x).nibble = s.nibble := by cases x <;> rfl
@[simp] theorem act_pcPolicy (p : Nibble) (s : State) (x : TalkAction) : (s.act p x).pcPolicy = s.pcPolicy := by
  cases x <;> rfl
@[simp] theorem act_loadWindow (p : Nibble) (s : State) (x : TalkAction) : (s.act p x).loadWindow = s.loadWindow := by
  cases x <;> rfl
@[simp] theorem act_hostIn (p : Nibble) (s : State) (x : TalkAction) : (s.act p x).hostIn = s.hostIn := by cases x <;> rfl
@[simp] theorem act_talkIn (p : Nibble) (s : State) (x : TalkAction) : (s.act p x).talkIn = s.talkIn := by cases x <;> rfl
@[simp] theorem act_draws (p : Nibble) (s : State) (x : TalkAction) : (s.act p x).draws = s.draws := by cases x <;> rfl

/-- A body reaches its own port only. -/
theorem act_dev_other (p : Nibble) (s : State) (x : TalkAction) {q : Nibble} (h : q ≠ p) : (s.act p x).dev q = s.dev q := by
  cases x with
  | setReg l v => exact dev_setDev_other s _ h
  | setVector v => exact dev_setDev_other s _ h
  | memWrite a v => rfl
  | ppu c => rfl

/-! ## A whole reply -/

/-- What holds before a reply and is kept by each of its effects holds after it. -/
theorem actAll_induction {P : State → Prop} {p : Nibble} (hact : ∀ s x, P s → P (s.act p x)) (acts : List TalkAction) :
    ∀ {s : State}, P s → P (s.actAll p acts) := by
  induction acts with
  | nil => exact fun h => h
  | cons x rest ih => exact fun h => ih (hact _ x h)

/-- What one effect of a body does, in closed form (R310). -/
theorem act_effect (p : Nibble) (s : State) (x : TalkAction) : ActionEffect p s (s.act p x) x := by
  cases x with
  | setReg l v =>
    exact ⟨rfl, fun q h => dev_setDev_other s _ h, fun k => by simp [State.act, get_put], by simp [State.act]⟩
  | setVector v =>
    exact ⟨rfl, fun q h => dev_setDev_other s _ h, fun k => by simp [State.act, Device.get], by simp [State.act]⟩
  | memWrite a v => exact ⟨rfl, fun b => Memory.byte_setByte s.mem a b v⟩
  | ppu c => rfl

/-- A whole reply is its effects one after the other (R93). -/
theorem actAll_in_order (p : Nibble) (acts : List TalkAction) : ∀ s : State, ActionsInOrder p acts s (s.actAll p acts) := by
  induction acts with
  | nil => exact fun s => rfl
  | cons x rest ih => exact fun s => ⟨s.act p x, act_effect p s x, ih _⟩

/-- What does not look at the two input fields and is kept by each effect of a body holds after `talk`. -/
theorem afterTalk_induction {P : State → Prop} {p : Nibble} (l : Nibble) (b : Bool) {s : State} (h : P s)
    (hin : ∀ r n, P { s with talkIn := r, draws := n }) (hact : ∀ s x, P s → P (s.act p x)) : P (s.afterTalk p l b) := by
  unfold State.afterTalk
  split
  · exact h
  · split
    · exact actAll_induction hact _ (hin _ _)
    · exact hin _ _
    · next he =>
      refine actAll_induction hact _ ?_
      have := hin s.talkIn (s.draws + 1)
      exact this

theorem actAll_talkIn (p : Nibble) (s : State) (acts : List TalkAction) : (s.actAll p acts).talkIn = s.talkIn :=
  actAll_induction (P := fun t => t.talkIn = s.talkIn) (fun t x h => (act_talkIn p t x).trans h) acts rfl

/-- A live body takes the first listed reply. -/
theorem afterTalk_talkIn (p l : Nibble) (b : Bool) (s : State) (h : Params.noopPort p = false) :
    (s.afterTalk p l b).talkIn = s.talkIn.tail := by
  unfold State.afterTalk
  rw [h]
  simp only [Bool.false_eq_true, ↓reduceIte]
  split <;> simp_all [actAll_talkIn]

theorem afterTalk_noop (p l : Nibble) (b : Bool) (s : State) (h : Params.noopPort p = true) : s.afterTalk p l b = s := by
  simp [State.afterTalk, h]

/-! ## Bus accesses of a body that keeps its contract -/

theorem talk_ok (p l : Nibble) (b : Bool) (s : State) (h : s.talkReenters p = false) :
    talk p l b s = .ok () (s.afterTalk p l b) := by
  simp [talk, h]

theorem deviceRead_ok (p l : Nibble) (s : State) (h : s.talkReenters p = false) :
    deviceRead p l s = .ok (((s.afterTalk p l false).dev p).get l) (s.afterTalk p l false) := by
  unfold deviceRead
  rw [bind_ok (talk_ok p l false s h)]
  rfl

theorem deviceWrite_eq (p l : Nibble) (v : Byte) (s : State) :
    deviceWrite p l v s = talk p l true (s.setDev p ((s.dev p).busWrite l v)) :=
  bind_ok (x := storeReg p l v) rfl

theorem deviceWrite_ok (p l : Nibble) (v : Byte) (s : State) (h : s.talkReenters p = false) :
    deviceWrite p l v s = .ok () (s.afterBusByte p l v) := by
  rw [deviceWrite_eq]
  exact talk_ok _ _ _ _ h

theorem talkReenters_head {p : Nibble} {s : State}
    (h : Params.noopPort p = true ∨ (s.talkIn.take 1).all TalkReply.wellFormed = true) : s.talkReenters p = false := by
  rcases h with h | h
  · simp [State.talkReenters, h]
  · unfold State.talkReenters
    split
    · next he => rw [he] at h; cases h
    · simp

theorem bodyObeys_one {s : State} {a : Byte} {n : Nat} (h : s.bodyObeys a (n + 1)) : s.talkReenters (portOf a) = false := by
  refine talkReenters_head (h.imp_right fun h => ?_)
  cases hs : s.talkIn with
  | nil => rfl
  | cons x rest => simp [hs] at h ⊢; exact h.1

/-- After a call of the body, in a state whose replies were those of `s`, one call less is left. -/
theorem bodyObeys_tail {s t : State} {a : Byte} {n : Nat} (l : Nibble) (b : Bool) (h : s.bodyObeys a (n + 1))
    (ht : t.talkIn = s.talkIn) : (t.afterTalk (portOf a) l b).bodyObeys a n := by
  cases hp : Params.noopPort (portOf a) with
  | true => exact .inl hp
  | false =>
    refine .inr ?_
    rw [afterTalk_talkIn _ _ _ _ hp, ht]
    rcases h with h | h
    · rw [hp] at h; cases h
    · cases hs : s.talkIn with
      | nil => simp
      | cons x rest =>
        rw [hs, List.take_succ_cons, List.all_cons, Bool.and_eq_true] at h
        exact h.2

/-- A device read of a body that keeps its contract (R85, R88). -/
theorem devRead_ok {s : State} {a : Byte} {w : Width} (h : s.bodyObeys a w.bytes) :
    devRead a w s = .ok (s.busValue a w) (s.afterBusRead a w) := by
  cases w with
  | byte =>
    unfold devRead
    dsimp only
    rw [bind_ok (deviceRead_ok _ _ _ (bodyObeys_one h))]
    rfl
  | short =>
    have h' := bodyObeys_tail (localOf a) false h (t := s) rfl
    unfold devRead
    dsimp only
    rw [bind_ok (deviceRead_ok _ _ _ (bodyObeys_one h)), bind_ok (deviceRead_ok _ _ _ (bodyObeys_one h'))]
    rfl

/-- A device write of a body that keeps its contract (R86, R88). -/
theorem devWrite_ok {s : State} {a : Byte} {w : Width} (v : Short) (h : s.bodyObeys a w.bytes) :
    devWrite a w v s = .ok () (s.afterBusWrite a w v) := by
  cases w with
  | byte => exact deviceWrite_ok _ _ _ _ (bodyObeys_one h)
  | short =>
    have h' : (s.afterBusByte (portOf a) (localOf a) (hiByte v)).bodyObeys a 1 :=
      bodyObeys_tail (localOf a) true h rfl
    unfold devWrite
    dsimp only
    rw [bind_ok (deviceWrite_ok _ _ _ _ (bodyObeys_one h)), deviceWrite_ok _ _ _ _ (bodyObeys_one h')]
    rfl

end Sys2Proof.Machine
end

