-- ==== Sys2Proof/Laws/Forms.lean ====
section
/-! SUPPORT. What every form runs: the body of its opcode in its mode. `exec_cases` says it of every instruction once, so
that a proof about all of `exec` has three cases. -/

namespace Sys2Proof.Machine

theorem exec_incForm (m : Mode) (s : State) : exec (incForm m) s = runOp m 0x01#5 incBody s := by
  obtain ⟨_ | _, _ | _, _ | _⟩ := m <;> rfl

theorem exec_popForm (m : Mode) (s : State) : exec (popForm m) s = runOp m 0x02#5 popBody s := by
  obtain ⟨_ | _, _ | _, _ | _⟩ := m <;> rfl

theorem exec_dupForm (m : Mode) (s : State) : exec (dupForm m) s = runOp m 0x03#5 dupBody s := by
  obtain ⟨_ | _, _ | _, _ | _⟩ := m <;> rfl

theorem exec_nipForm (m : Mode) (s : State) : exec (nipForm m) s = runOp m 0x04#5 nipBody s := by
  obtain ⟨_ | _, _ | _, _ | _⟩ := m <;> rfl

theorem exec_swpForm (m : Mode) (s : State) : exec (swpForm m) s = runOp m 0x05#5 swpBody s := by
  obtain ⟨_ | _, _ | _, _ | _⟩ := m <;> rfl

theorem exec_ovrForm (m : Mode) (s : State) : exec (ovrForm m) s = runOp m 0x06#5 ovrBody s := by
  obtain ⟨_ | _, _ | _, _ | _⟩ := m <;> rfl

theorem exec_rotForm (m : Mode) (s : State) : exec (rotForm m) s = runOp m 0x07#5 rotBody s := by
  obtain ⟨_ | _, _ | _, _ | _⟩ := m <;> rfl

theorem exec_equForm (m : Mode) (s : State) : exec (equForm m) s = runOp m 0x08#5 equBody s := by
  obtain ⟨_ | _, _ | _, _ | _⟩ := m <;> rfl

theorem exec_neqForm (m : Mode) (s : State) : exec (neqForm m) s = runOp m 0x09#5 neqBody s := by
  obtain ⟨_ | _, _ | _, _ | _⟩ := m <;> rfl

theorem exec_gthForm (m : Mode) (s : State) : exec (gthForm m) s = runOp m 0x0A#5 gthBody s := by
  obtain ⟨_ | _, _ | _, _ | _⟩ := m <;> rfl

theorem exec_lthForm (m : Mode) (s : State) : exec (lthForm m) s = runOp m 0x0B#5 lthBody s := by
  obtain ⟨_ | _, _ | _, _ | _⟩ := m <;> rfl

theorem exec_jmpForm (m : Mode) (s : State) : exec (jmpForm m) s = runOp m 0x0C#5 jmpBody s := by
  obtain ⟨_ | _, _ | _, _ | _⟩ := m <;> rfl

theorem exec_jnzForm (m : Mode) (s : State) : exec (jnzForm m) s = runOp m 0x0D#5 jnzBody s := by
  obtain ⟨_ | _, _ | _, _ | _⟩ := m <;> rfl

theorem exec_jsrForm (m : Mode) (s : State) : exec (jsrForm m) s = runOp m 0x0E#5 jsrBody s := by
  obtain ⟨_ | _, _ | _, _ | _⟩ := m <;> rfl

theorem exec_sthForm (m : Mode) (s : State) : exec (sthForm m) s = runOp m 0x0F#5 sthBody s := by
  obtain ⟨_ | _, _ | _, _ | _⟩ := m <;> rfl

theorem exec_ldzForm (m : Mode) (s : State) : exec (ldzForm m) s = runOp m 0x10#5 ldzBody s := by
  obtain ⟨_ | _, _ | _, _ | _⟩ := m <;> rfl

theorem exec_stzForm (m : Mode) (s : State) : exec (stzForm m) s = runOp m 0x11#5 stzBody s := by
  obtain ⟨_ | _, _ | _, _ | _⟩ := m <;> rfl

theorem exec_ldrForm (m : Mode) (s : State) : exec (ldrForm m) s = runOp m 0x12#5 ldrBody s := by
  obtain ⟨_ | _, _ | _, _ | _⟩ := m <;> rfl

theorem exec_strForm (m : Mode) (s : State) : exec (strForm m) s = runOp m 0x13#5 strBody s := by
  obtain ⟨_ | _, _ | _, _ | _⟩ := m <;> rfl

theorem exec_ldaForm (m : Mode) (s : State) : exec (ldaForm m) s = runOp m 0x14#5 ldaBody s := by
  obtain ⟨_ | _, _ | _, _ | _⟩ := m <;> rfl

theorem exec_staForm (m : Mode) (s : State) : exec (staForm m) s = runOp m 0x15#5 staBody s := by
  obtain ⟨_ | _, _ | _, _ | _⟩ := m <;> rfl

theorem exec_deiForm (m : Mode) (s : State) : exec (deiForm m) s = runOp m 0x16#5 deiBody s := by
  obtain ⟨_ | _, _ | _, _ | _⟩ := m <;> rfl

theorem exec_deoForm (m : Mode) (s : State) : exec (deoForm m) s = runOp m 0x17#5 deoBody s := by
  obtain ⟨_ | _, _ | _, _ | _⟩ := m <;> rfl

theorem exec_addForm (m : Mode) (s : State) : exec (addForm m) s = runOp m 0x18#5 addBody s := by
  obtain ⟨_ | _, _ | _, _ | _⟩ := m <;> rfl

theorem exec_subForm (m : Mode) (s : State) : exec (subForm m) s = runOp m 0x19#5 subBody s := by
  obtain ⟨_ | _, _ | _, _ | _⟩ := m <;> rfl

theorem exec_mulForm (m : Mode) (s : State) : exec (mulForm m) s = runOp m 0x1A#5 mulBody s := by
  obtain ⟨_ | _, _ | _, _ | _⟩ := m <;> rfl

theorem exec_divForm (m : Mode) (s : State) : exec (divForm m) s = runOp m 0x1B#5 divBody s := by
  obtain ⟨_ | _, _ | _, _ | _⟩ := m <;> rfl

theorem exec_andForm (m : Mode) (s : State) : exec (andForm m) s = runOp m 0x1C#5 andBody s := by
  obtain ⟨_ | _, _ | _, _ | _⟩ := m <;> rfl

theorem exec_oraForm (m : Mode) (s : State) : exec (oraForm m) s = runOp m 0x1D#5 oraBody s := by
  obtain ⟨_ | _, _ | _, _ | _⟩ := m <;> rfl

theorem exec_eorForm (m : Mode) (s : State) : exec (eorForm m) s = runOp m 0x1E#5 eorBody s := by
  obtain ⟨_ | _, _ | _, _ | _⟩ := m <;> rfl

theorem exec_sftForm (m : Mode) (s : State) : exec (sftForm m) s = runOp m 0x1F#5 sftBody s := by
  obtain ⟨_ | _, _ | _, _ | _⟩ := m <;> rfl

/-- The body of an opcode. -/
def bodyOf : Opcode → Ctx → MicroOp Unit
  | .inc => incBody
  | .pop => popBody
  | .dup => dupBody
  | .nip => nipBody
  | .swp => swpBody
  | .ovr => ovrBody
  | .rot => rotBody
  | .equ => equBody
  | .neq => neqBody
  | .gth => gthBody
  | .lth => lthBody
  | .jmp => jmpBody
  | .jnz => jnzBody
  | .jsr => jsrBody
  | .sth => sthBody
  | .ldz => ldzBody
  | .stz => stzBody
  | .ldr => ldrBody
  | .str => strBody
  | .lda => ldaBody
  | .sta => staBody
  | .dei => deiBody
  | .deo => deoBody
  | .add => addBody
  | .sub => subBody
  | .mul => mulBody
  | .div => divBody
  | .and => andBody
  | .ora => oraBody
  | .eor => eorBody
  | .sft => sftBody

theorem exec_form (o : Opcode) (m : Mode) (s : State) : exec (o.form m) s = runOp m o.index (bodyOf o) s := by
  cases o with
  | inc => exact exec_incForm m s
  | pop => exact exec_popForm m s
  | dup => exact exec_dupForm m s
  | nip => exact exec_nipForm m s
  | swp => exact exec_swpForm m s
  | ovr => exact exec_ovrForm m s
  | rot => exact exec_rotForm m s
  | equ => exact exec_equForm m s
  | neq => exact exec_neqForm m s
  | gth => exact exec_gthForm m s
  | lth => exact exec_lthForm m s
  | jmp => exact exec_jmpForm m s
  | jnz => exact exec_jnzForm m s
  | jsr => exact exec_jsrForm m s
  | sth => exact exec_sthForm m s
  | ldz => exact exec_ldzForm m s
  | stz => exact exec_stzForm m s
  | ldr => exact exec_ldrForm m s
  | str => exact exec_strForm m s
  | lda => exact exec_ldaForm m s
  | sta => exact exec_staForm m s
  | dei => exact exec_deiForm m s
  | deo => exact exec_deoForm m s
  | add => exact exec_addForm m s
  | sub => exact exec_subForm m s
  | mul => exact exec_mulForm m s
  | div => exact exec_divForm m s
  | and => exact exec_andForm m s
  | ora => exact exec_oraForm m s
  | eor => exact exec_eorForm m s
  | sft => exact exec_sftForm m s

/-- The bytes of an opcode's index decode to its forms. -/
theorem encodedAt (o : Opcode) : EncodedAt o o.index := by
  rintro ⟨_ | _, _ | _, _ | _⟩ rest <;> cases o <;> rfl

/-- The literal a LIT form of mode `m` pushes when its operand is `v`. -/
def litValue (m : Mode) (v : Short) : Short :=
  match m.width with
  | .byte => byteLiteral (loByte v)
  | .short => v

theorem exec_litInstr (m : Mode) (v : Short) (s : State) (hm : m ≠ ⟨false, false, false⟩) :
    exec (litInstr m v) s = runOp m 0x00#5 (litBody (litValue m v)) s := by
  obtain ⟨_ | _, _ | _, _ | _⟩ := m <;> first | rfl | exact absurd rfl hm

/-- The loByte of a zero-extended byte is that byte. -/
@[simp] theorem loByte_zext8 (b : Byte) : loByte (zext8 b) = b := by
  simp [loByte, zext8, BitVec.extractLsb'_setWidth_of_le]

/-- Every instruction is BRK, a LIT form, or a form of one of the 31 other opcodes. -/
theorem instr_cases (i : Instr) :
    i = .brk ∨ (∃ (m : Mode) (v : Short), m ≠ ⟨false, false, false⟩ ∧ i = litInstr m v) ∨
      ∃ (o : Opcode) (m : Mode), i = o.form m := by
  cases i with
  | brk => exact .inl rfl
  | inc => exact .inr (.inr ⟨.inc, ⟨false, false, false⟩, rfl⟩)
  | pop => exact .inr (.inr ⟨.pop, ⟨false, false, false⟩, rfl⟩)
  | dup => exact .inr (.inr ⟨.dup, ⟨false, false, false⟩, rfl⟩)
  | nip => exact .inr (.inr ⟨.nip, ⟨false, false, false⟩, rfl⟩)
  | swp => exact .inr (.inr ⟨.swp, ⟨false, false, false⟩, rfl⟩)
  | ovr => exact .inr (.inr ⟨.ovr, ⟨false, false, false⟩, rfl⟩)
  | rot => exact .inr (.inr ⟨.rot, ⟨false, false, false⟩, rfl⟩)
  | equ => exact .inr (.inr ⟨.equ, ⟨false, false, false⟩, rfl⟩)
  | neq => exact .inr (.inr ⟨.neq, ⟨false, false, false⟩, rfl⟩)
  | gth => exact .inr (.inr ⟨.gth, ⟨false, false, false⟩, rfl⟩)
  | lth => exact .inr (.inr ⟨.lth, ⟨false, false, false⟩, rfl⟩)
  | jmp => exact .inr (.inr ⟨.jmp, ⟨false, false, false⟩, rfl⟩)
  | jnz => exact .inr (.inr ⟨.jnz, ⟨false, false, false⟩, rfl⟩)
  | jsr => exact .inr (.inr ⟨.jsr, ⟨false, false, false⟩, rfl⟩)
  | sth => exact .inr (.inr ⟨.sth, ⟨false, false, false⟩, rfl⟩)
  | ldz => exact .inr (.inr ⟨.ldz, ⟨false, false, false⟩, rfl⟩)
  | stz => exact .inr (.inr ⟨.stz, ⟨false, false, false⟩, rfl⟩)
  | ldr => exact .inr (.inr ⟨.ldr, ⟨false, false, false⟩, rfl⟩)
  | str => exact .inr (.inr ⟨.str, ⟨false, false, false⟩, rfl⟩)
  | lda => exact .inr (.inr ⟨.lda, ⟨false, false, false⟩, rfl⟩)
  | sta => exact .inr (.inr ⟨.sta, ⟨false, false, false⟩, rfl⟩)
  | dei => exact .inr (.inr ⟨.dei, ⟨false, false, false⟩, rfl⟩)
  | deo => exact .inr (.inr ⟨.deo, ⟨false, false, false⟩, rfl⟩)
  | add => exact .inr (.inr ⟨.add, ⟨false, false, false⟩, rfl⟩)
  | sub => exact .inr (.inr ⟨.sub, ⟨false, false, false⟩, rfl⟩)
  | mul => exact .inr (.inr ⟨.mul, ⟨false, false, false⟩, rfl⟩)
  | div => exact .inr (.inr ⟨.div, ⟨false, false, false⟩, rfl⟩)
  | and => exact .inr (.inr ⟨.and, ⟨false, false, false⟩, rfl⟩)
  | ora => exact .inr (.inr ⟨.ora, ⟨false, false, false⟩, rfl⟩)
  | eor => exact .inr (.inr ⟨.eor, ⟨false, false, false⟩, rfl⟩)
  | sft => exact .inr (.inr ⟨.sft, ⟨false, false, false⟩, rfl⟩)
  | lit2 v => exact .inr (.inl ⟨⟨false, false, true⟩, v, by decide, rfl⟩)
  | inc2 => exact .inr (.inr ⟨.inc, ⟨false, false, true⟩, rfl⟩)
  | pop2 => exact .inr (.inr ⟨.pop, ⟨false, false, true⟩, rfl⟩)
  | dup2 => exact .inr (.inr ⟨.dup, ⟨false, false, true⟩, rfl⟩)
  | nip2 => exact .inr (.inr ⟨.nip, ⟨false, false, true⟩, rfl⟩)
  | swp2 => exact .inr (.inr ⟨.swp, ⟨false, false, true⟩, rfl⟩)
  | ovr2 => exact .inr (.inr ⟨.ovr, ⟨false, false, true⟩, rfl⟩)
  | rot2 => exact .inr (.inr ⟨.rot, ⟨false, false, true⟩, rfl⟩)
  | equ2 => exact .inr (.inr ⟨.equ, ⟨false, false, true⟩, rfl⟩)
  | neq2 => exact .inr (.inr ⟨.neq, ⟨false, false, true⟩, rfl⟩)
  | gth2 => exact .inr (.inr ⟨.gth, ⟨false, false, true⟩, rfl⟩)
  | lth2 => exact .inr (.inr ⟨.lth, ⟨false, false, true⟩, rfl⟩)
  | jmp2 => exact .inr (.inr ⟨.jmp, ⟨false, false, true⟩, rfl⟩)
  | jnz2 => exact .inr (.inr ⟨.jnz, ⟨false, false, true⟩, rfl⟩)
  | jsr2 => exact .inr (.inr ⟨.jsr, ⟨false, false, true⟩, rfl⟩)
  | sth2 => exact .inr (.inr ⟨.sth, ⟨false, false, true⟩, rfl⟩)
  | ldz2 => exact .inr (.inr ⟨.ldz, ⟨false, false, true⟩, rfl⟩)
  | stz2 => exact .inr (.inr ⟨.stz, ⟨false, false, true⟩, rfl⟩)
  | ldr2 => exact .inr (.inr ⟨.ldr, ⟨false, false, true⟩, rfl⟩)
  | str2 => exact .inr (.inr ⟨.str, ⟨false, false, true⟩, rfl⟩)
  | lda2 => exact .inr (.inr ⟨.lda, ⟨false, false, true⟩, rfl⟩)
  | sta2 => exact .inr (.inr ⟨.sta, ⟨false, false, true⟩, rfl⟩)
  | dei2 => exact .inr (.inr ⟨.dei, ⟨false, false, true⟩, rfl⟩)
  | deo2 => exact .inr (.inr ⟨.deo, ⟨false, false, true⟩, rfl⟩)
  | add2 => exact .inr (.inr ⟨.add, ⟨false, false, true⟩, rfl⟩)
  | sub2 => exact .inr (.inr ⟨.sub, ⟨false, false, true⟩, rfl⟩)
  | mul2 => exact .inr (.inr ⟨.mul, ⟨false, false, true⟩, rfl⟩)
  | div2 => exact .inr (.inr ⟨.div, ⟨false, false, true⟩, rfl⟩)
  | and2 => exact .inr (.inr ⟨.and, ⟨false, false, true⟩, rfl⟩)
  | ora2 => exact .inr (.inr ⟨.ora, ⟨false, false, true⟩, rfl⟩)
  | eor2 => exact .inr (.inr ⟨.eor, ⟨false, false, true⟩, rfl⟩)
  | sft2 => exact .inr (.inr ⟨.sft, ⟨false, false, true⟩, rfl⟩)
  | litr v => exact .inr (.inl ⟨⟨false, true, false⟩, zext8 v, by decide, by simp [litInstr]⟩)
  | incr => exact .inr (.inr ⟨.inc, ⟨false, true, false⟩, rfl⟩)
  | popr => exact .inr (.inr ⟨.pop, ⟨false, true, false⟩, rfl⟩)
  | dupr => exact .inr (.inr ⟨.dup, ⟨false, true, false⟩, rfl⟩)
  | nipr => exact .inr (.inr ⟨.nip, ⟨false, true, false⟩, rfl⟩)
  | swpr => exact .inr (.inr ⟨.swp, ⟨false, true, false⟩, rfl⟩)
  | ovrr => exact .inr (.inr ⟨.ovr, ⟨false, true, false⟩, rfl⟩)
  | rotr => exact .inr (.inr ⟨.rot, ⟨false, true, false⟩, rfl⟩)
  | equr => exact .inr (.inr ⟨.equ, ⟨false, true, false⟩, rfl⟩)
  | neqr => exact .inr (.inr ⟨.neq, ⟨false, true, false⟩, rfl⟩)
  | gthr => exact .inr (.inr ⟨.gth, ⟨false, true, false⟩, rfl⟩)
  | lthr => exact .inr (.inr ⟨.lth, ⟨false, true, false⟩, rfl⟩)
  | jmpr => exact .inr (.inr ⟨.jmp, ⟨false, true, false⟩, rfl⟩)
  | jnzr => exact .inr (.inr ⟨.jnz, ⟨false, true, false⟩, rfl⟩)
  | jsrr => exact .inr (.inr ⟨.jsr, ⟨false, true, false⟩, rfl⟩)
  | sthr => exact .inr (.inr ⟨.sth, ⟨false, true, false⟩, rfl⟩)
  | ldzr => exact .inr (.inr ⟨.ldz, ⟨false, true, false⟩, rfl⟩)
  | stzr => exact .inr (.inr ⟨.stz, ⟨false, true, false⟩, rfl⟩)
  | ldrr => exact .inr (.inr ⟨.ldr, ⟨false, true, false⟩, rfl⟩)
  | strr => exact .inr (.inr ⟨.str, ⟨false, true, false⟩, rfl⟩)
  | ldar => exact .inr (.inr ⟨.lda, ⟨false, true, false⟩, rfl⟩)
  | star => exact .inr (.inr ⟨.sta, ⟨false, true, false⟩, rfl⟩)
  | deir => exact .inr (.inr ⟨.dei, ⟨false, true, false⟩, rfl⟩)
  | deor => exact .inr (.inr ⟨.deo, ⟨false, true, false⟩, rfl⟩)
  | addr => exact .inr (.inr ⟨.add, ⟨false, true, false⟩, rfl⟩)
  | subr => exact .inr (.inr ⟨.sub, ⟨false, true, false⟩, rfl⟩)
  | mulr => exact .inr (.inr ⟨.mul, ⟨false, true, false⟩, rfl⟩)
  | divr => exact .inr (.inr ⟨.div, ⟨false, true, false⟩, rfl⟩)
  | andr => exact .inr (.inr ⟨.and, ⟨false, true, false⟩, rfl⟩)
  | orar => exact .inr (.inr ⟨.ora, ⟨false, true, false⟩, rfl⟩)
  | eorr => exact .inr (.inr ⟨.eor, ⟨false, true, false⟩, rfl⟩)
  | sftr => exact .inr (.inr ⟨.sft, ⟨false, true, false⟩, rfl⟩)
  | lit2r v => exact .inr (.inl ⟨⟨false, true, true⟩, v, by decide, rfl⟩)
  | inc2r => exact .inr (.inr ⟨.inc, ⟨false, true, true⟩, rfl⟩)
  | pop2r => exact .inr (.inr ⟨.pop, ⟨false, true, true⟩, rfl⟩)
  | dup2r => exact .inr (.inr ⟨.dup, ⟨false, true, true⟩, rfl⟩)
  | nip2r => exact .inr (.inr ⟨.nip, ⟨false, true, true⟩, rfl⟩)
  | swp2r => exact .inr (.inr ⟨.swp, ⟨false, true, true⟩, rfl⟩)
  | ovr2r => exact .inr (.inr ⟨.ovr, ⟨false, true, true⟩, rfl⟩)
  | rot2r => exact .inr (.inr ⟨.rot, ⟨false, true, true⟩, rfl⟩)
  | equ2r => exact .inr (.inr ⟨.equ, ⟨false, true, true⟩, rfl⟩)
  | neq2r => exact .inr (.inr ⟨.neq, ⟨false, true, true⟩, rfl⟩)
  | gth2r => exact .inr (.inr ⟨.gth, ⟨false, true, true⟩, rfl⟩)
  | lth2r => exact .inr (.inr ⟨.lth, ⟨false, true, true⟩, rfl⟩)
  | jmp2r => exact .inr (.inr ⟨.jmp, ⟨false, true, true⟩, rfl⟩)
  | jnz2r => exact .inr (.inr ⟨.jnz, ⟨false, true, true⟩, rfl⟩)
  | jsr2r => exact .inr (.inr ⟨.jsr, ⟨false, true, true⟩, rfl⟩)
  | sth2r => exact .inr (.inr ⟨.sth, ⟨false, true, true⟩, rfl⟩)
  | ldz2r => exact .inr (.inr ⟨.ldz, ⟨false, true, true⟩, rfl⟩)
  | stz2r => exact .inr (.inr ⟨.stz, ⟨false, true, true⟩, rfl⟩)
  | ldr2r => exact .inr (.inr ⟨.ldr, ⟨false, true, true⟩, rfl⟩)
  | str2r => exact .inr (.inr ⟨.str, ⟨false, true, true⟩, rfl⟩)
  | lda2r => exact .inr (.inr ⟨.lda, ⟨false, true, true⟩, rfl⟩)
  | sta2r => exact .inr (.inr ⟨.sta, ⟨false, true, true⟩, rfl⟩)
  | dei2r => exact .inr (.inr ⟨.dei, ⟨false, true, true⟩, rfl⟩)
  | deo2r => exact .inr (.inr ⟨.deo, ⟨false, true, true⟩, rfl⟩)
  | add2r => exact .inr (.inr ⟨.add, ⟨false, true, true⟩, rfl⟩)
  | sub2r => exact .inr (.inr ⟨.sub, ⟨false, true, true⟩, rfl⟩)
  | mul2r => exact .inr (.inr ⟨.mul, ⟨false, true, true⟩, rfl⟩)
  | div2r => exact .inr (.inr ⟨.div, ⟨false, true, true⟩, rfl⟩)
  | and2r => exact .inr (.inr ⟨.and, ⟨false, true, true⟩, rfl⟩)
  | ora2r => exact .inr (.inr ⟨.ora, ⟨false, true, true⟩, rfl⟩)
  | eor2r => exact .inr (.inr ⟨.eor, ⟨false, true, true⟩, rfl⟩)
  | sft2r => exact .inr (.inr ⟨.sft, ⟨false, true, true⟩, rfl⟩)
  | litk v => exact .inr (.inl ⟨⟨true, false, false⟩, zext8 v, by decide, by simp [litInstr]⟩)
  | inck => exact .inr (.inr ⟨.inc, ⟨true, false, false⟩, rfl⟩)
  | popk => exact .inr (.inr ⟨.pop, ⟨true, false, false⟩, rfl⟩)
  | dupk => exact .inr (.inr ⟨.dup, ⟨true, false, false⟩, rfl⟩)
  | nipk => exact .inr (.inr ⟨.nip, ⟨true, false, false⟩, rfl⟩)
  | swpk => exact .inr (.inr ⟨.swp, ⟨true, false, false⟩, rfl⟩)
  | ovrk => exact .inr (.inr ⟨.ovr, ⟨true, false, false⟩, rfl⟩)
  | rotk => exact .inr (.inr ⟨.rot, ⟨true, false, false⟩, rfl⟩)
  | equk => exact .inr (.inr ⟨.equ, ⟨true, false, false⟩, rfl⟩)
  | neqk => exact .inr (.inr ⟨.neq, ⟨true, false, false⟩, rfl⟩)
  | gthk => exact .inr (.inr ⟨.gth, ⟨true, false, false⟩, rfl⟩)
  | lthk => exact .inr (.inr ⟨.lth, ⟨true, false, false⟩, rfl⟩)
  | jmpk => exact .inr (.inr ⟨.jmp, ⟨true, false, false⟩, rfl⟩)
  | jnzk => exact .inr (.inr ⟨.jnz, ⟨true, false, false⟩, rfl⟩)
  | jsrk => exact .inr (.inr ⟨.jsr, ⟨true, false, false⟩, rfl⟩)
  | sthk => exact .inr (.inr ⟨.sth, ⟨true, false, false⟩, rfl⟩)
  | ldzk => exact .inr (.inr ⟨.ldz, ⟨true, false, false⟩, rfl⟩)
  | stzk => exact .inr (.inr ⟨.stz, ⟨true, false, false⟩, rfl⟩)
  | ldrk => exact .inr (.inr ⟨.ldr, ⟨true, false, false⟩, rfl⟩)
  | strk => exact .inr (.inr ⟨.str, ⟨true, false, false⟩, rfl⟩)
  | ldak => exact .inr (.inr ⟨.lda, ⟨true, false, false⟩, rfl⟩)
  | stak => exact .inr (.inr ⟨.sta, ⟨true, false, false⟩, rfl⟩)
  | deik => exact .inr (.inr ⟨.dei, ⟨true, false, false⟩, rfl⟩)
  | deok => exact .inr (.inr ⟨.deo, ⟨true, false, false⟩, rfl⟩)
  | addk => exact .inr (.inr ⟨.add, ⟨true, false, false⟩, rfl⟩)
  | subk => exact .inr (.inr ⟨.sub, ⟨true, false, false⟩, rfl⟩)
  | mulk => exact .inr (.inr ⟨.mul, ⟨true, false, false⟩, rfl⟩)
  | divk => exact .inr (.inr ⟨.div, ⟨true, false, false⟩, rfl⟩)
  | andk => exact .inr (.inr ⟨.and, ⟨true, false, false⟩, rfl⟩)
  | orak => exact .inr (.inr ⟨.ora, ⟨true, false, false⟩, rfl⟩)
  | eork => exact .inr (.inr ⟨.eor, ⟨true, false, false⟩, rfl⟩)
  | sftk => exact .inr (.inr ⟨.sft, ⟨true, false, false⟩, rfl⟩)
  | lit2k v => exact .inr (.inl ⟨⟨true, false, true⟩, v, by decide, rfl⟩)
  | inc2k => exact .inr (.inr ⟨.inc, ⟨true, false, true⟩, rfl⟩)
  | pop2k => exact .inr (.inr ⟨.pop, ⟨true, false, true⟩, rfl⟩)
  | dup2k => exact .inr (.inr ⟨.dup, ⟨true, false, true⟩, rfl⟩)
  | nip2k => exact .inr (.inr ⟨.nip, ⟨true, false, true⟩, rfl⟩)
  | swp2k => exact .inr (.inr ⟨.swp, ⟨true, false, true⟩, rfl⟩)
  | ovr2k => exact .inr (.inr ⟨.ovr, ⟨true, false, true⟩, rfl⟩)
  | rot2k => exact .inr (.inr ⟨.rot, ⟨true, false, true⟩, rfl⟩)
  | equ2k => exact .inr (.inr ⟨.equ, ⟨true, false, true⟩, rfl⟩)
  | neq2k => exact .inr (.inr ⟨.neq, ⟨true, false, true⟩, rfl⟩)
  | gth2k => exact .inr (.inr ⟨.gth, ⟨true, false, true⟩, rfl⟩)
  | lth2k => exact .inr (.inr ⟨.lth, ⟨true, false, true⟩, rfl⟩)
  | jmp2k => exact .inr (.inr ⟨.jmp, ⟨true, false, true⟩, rfl⟩)
  | jnz2k => exact .inr (.inr ⟨.jnz, ⟨true, false, true⟩, rfl⟩)
  | jsr2k => exact .inr (.inr ⟨.jsr, ⟨true, false, true⟩, rfl⟩)
  | sth2k => exact .inr (.inr ⟨.sth, ⟨true, false, true⟩, rfl⟩)
  | ldz2k => exact .inr (.inr ⟨.ldz, ⟨true, false, true⟩, rfl⟩)
  | stz2k => exact .inr (.inr ⟨.stz, ⟨true, false, true⟩, rfl⟩)
  | ldr2k => exact .inr (.inr ⟨.ldr, ⟨true, false, true⟩, rfl⟩)
  | str2k => exact .inr (.inr ⟨.str, ⟨true, false, true⟩, rfl⟩)
  | lda2k => exact .inr (.inr ⟨.lda, ⟨true, false, true⟩, rfl⟩)
  | sta2k => exact .inr (.inr ⟨.sta, ⟨true, false, true⟩, rfl⟩)
  | dei2k => exact .inr (.inr ⟨.dei, ⟨true, false, true⟩, rfl⟩)
  | deo2k => exact .inr (.inr ⟨.deo, ⟨true, false, true⟩, rfl⟩)
  | add2k => exact .inr (.inr ⟨.add, ⟨true, false, true⟩, rfl⟩)
  | sub2k => exact .inr (.inr ⟨.sub, ⟨true, false, true⟩, rfl⟩)
  | mul2k => exact .inr (.inr ⟨.mul, ⟨true, false, true⟩, rfl⟩)
  | div2k => exact .inr (.inr ⟨.div, ⟨true, false, true⟩, rfl⟩)
  | and2k => exact .inr (.inr ⟨.and, ⟨true, false, true⟩, rfl⟩)
  | ora2k => exact .inr (.inr ⟨.ora, ⟨true, false, true⟩, rfl⟩)
  | eor2k => exact .inr (.inr ⟨.eor, ⟨true, false, true⟩, rfl⟩)
  | sft2k => exact .inr (.inr ⟨.sft, ⟨true, false, true⟩, rfl⟩)
  | litkr v => exact .inr (.inl ⟨⟨true, true, false⟩, zext8 v, by decide, by simp [litInstr]⟩)
  | inckr => exact .inr (.inr ⟨.inc, ⟨true, true, false⟩, rfl⟩)
  | popkr => exact .inr (.inr ⟨.pop, ⟨true, true, false⟩, rfl⟩)
  | dupkr => exact .inr (.inr ⟨.dup, ⟨true, true, false⟩, rfl⟩)
  | nipkr => exact .inr (.inr ⟨.nip, ⟨true, true, false⟩, rfl⟩)
  | swpkr => exact .inr (.inr ⟨.swp, ⟨true, true, false⟩, rfl⟩)
  | ovrkr => exact .inr (.inr ⟨.ovr, ⟨true, true, false⟩, rfl⟩)
  | rotkr => exact .inr (.inr ⟨.rot, ⟨true, true, false⟩, rfl⟩)
  | equkr => exact .inr (.inr ⟨.equ, ⟨true, true, false⟩, rfl⟩)
  | neqkr => exact .inr (.inr ⟨.neq, ⟨true, true, false⟩, rfl⟩)
  | gthkr => exact .inr (.inr ⟨.gth, ⟨true, true, false⟩, rfl⟩)
  | lthkr => exact .inr (.inr ⟨.lth, ⟨true, true, false⟩, rfl⟩)
  | jmpkr => exact .inr (.inr ⟨.jmp, ⟨true, true, false⟩, rfl⟩)
  | jnzkr => exact .inr (.inr ⟨.jnz, ⟨true, true, false⟩, rfl⟩)
  | jsrkr => exact .inr (.inr ⟨.jsr, ⟨true, true, false⟩, rfl⟩)
  | sthkr => exact .inr (.inr ⟨.sth, ⟨true, true, false⟩, rfl⟩)
  | ldzkr => exact .inr (.inr ⟨.ldz, ⟨true, true, false⟩, rfl⟩)
  | stzkr => exact .inr (.inr ⟨.stz, ⟨true, true, false⟩, rfl⟩)
  | ldrkr => exact .inr (.inr ⟨.ldr, ⟨true, true, false⟩, rfl⟩)
  | strkr => exact .inr (.inr ⟨.str, ⟨true, true, false⟩, rfl⟩)
  | ldakr => exact .inr (.inr ⟨.lda, ⟨true, true, false⟩, rfl⟩)
  | stakr => exact .inr (.inr ⟨.sta, ⟨true, true, false⟩, rfl⟩)
  | deikr => exact .inr (.inr ⟨.dei, ⟨true, true, false⟩, rfl⟩)
  | deokr => exact .inr (.inr ⟨.deo, ⟨true, true, false⟩, rfl⟩)
  | addkr => exact .inr (.inr ⟨.add, ⟨true, true, false⟩, rfl⟩)
  | subkr => exact .inr (.inr ⟨.sub, ⟨true, true, false⟩, rfl⟩)
  | mulkr => exact .inr (.inr ⟨.mul, ⟨true, true, false⟩, rfl⟩)
  | divkr => exact .inr (.inr ⟨.div, ⟨true, true, false⟩, rfl⟩)
  | andkr => exact .inr (.inr ⟨.and, ⟨true, true, false⟩, rfl⟩)
  | orakr => exact .inr (.inr ⟨.ora, ⟨true, true, false⟩, rfl⟩)
  | eorkr => exact .inr (.inr ⟨.eor, ⟨true, true, false⟩, rfl⟩)
  | sftkr => exact .inr (.inr ⟨.sft, ⟨true, true, false⟩, rfl⟩)
  | lit2kr v => exact .inr (.inl ⟨⟨true, true, true⟩, v, by decide, rfl⟩)
  | inc2kr => exact .inr (.inr ⟨.inc, ⟨true, true, true⟩, rfl⟩)
  | pop2kr => exact .inr (.inr ⟨.pop, ⟨true, true, true⟩, rfl⟩)
  | dup2kr => exact .inr (.inr ⟨.dup, ⟨true, true, true⟩, rfl⟩)
  | nip2kr => exact .inr (.inr ⟨.nip, ⟨true, true, true⟩, rfl⟩)
  | swp2kr => exact .inr (.inr ⟨.swp, ⟨true, true, true⟩, rfl⟩)
  | ovr2kr => exact .inr (.inr ⟨.ovr, ⟨true, true, true⟩, rfl⟩)
  | rot2kr => exact .inr (.inr ⟨.rot, ⟨true, true, true⟩, rfl⟩)
  | equ2kr => exact .inr (.inr ⟨.equ, ⟨true, true, true⟩, rfl⟩)
  | neq2kr => exact .inr (.inr ⟨.neq, ⟨true, true, true⟩, rfl⟩)
  | gth2kr => exact .inr (.inr ⟨.gth, ⟨true, true, true⟩, rfl⟩)
  | lth2kr => exact .inr (.inr ⟨.lth, ⟨true, true, true⟩, rfl⟩)
  | jmp2kr => exact .inr (.inr ⟨.jmp, ⟨true, true, true⟩, rfl⟩)
  | jnz2kr => exact .inr (.inr ⟨.jnz, ⟨true, true, true⟩, rfl⟩)
  | jsr2kr => exact .inr (.inr ⟨.jsr, ⟨true, true, true⟩, rfl⟩)
  | sth2kr => exact .inr (.inr ⟨.sth, ⟨true, true, true⟩, rfl⟩)
  | ldz2kr => exact .inr (.inr ⟨.ldz, ⟨true, true, true⟩, rfl⟩)
  | stz2kr => exact .inr (.inr ⟨.stz, ⟨true, true, true⟩, rfl⟩)
  | ldr2kr => exact .inr (.inr ⟨.ldr, ⟨true, true, true⟩, rfl⟩)
  | str2kr => exact .inr (.inr ⟨.str, ⟨true, true, true⟩, rfl⟩)
  | lda2kr => exact .inr (.inr ⟨.lda, ⟨true, true, true⟩, rfl⟩)
  | sta2kr => exact .inr (.inr ⟨.sta, ⟨true, true, true⟩, rfl⟩)
  | dei2kr => exact .inr (.inr ⟨.dei, ⟨true, true, true⟩, rfl⟩)
  | deo2kr => exact .inr (.inr ⟨.deo, ⟨true, true, true⟩, rfl⟩)
  | add2kr => exact .inr (.inr ⟨.add, ⟨true, true, true⟩, rfl⟩)
  | sub2kr => exact .inr (.inr ⟨.sub, ⟨true, true, true⟩, rfl⟩)
  | mul2kr => exact .inr (.inr ⟨.mul, ⟨true, true, true⟩, rfl⟩)
  | div2kr => exact .inr (.inr ⟨.div, ⟨true, true, true⟩, rfl⟩)
  | and2kr => exact .inr (.inr ⟨.and, ⟨true, true, true⟩, rfl⟩)
  | ora2kr => exact .inr (.inr ⟨.ora, ⟨true, true, true⟩, rfl⟩)
  | eor2kr => exact .inr (.inr ⟨.eor, ⟨true, true, true⟩, rfl⟩)
  | sft2kr => exact .inr (.inr ⟨.sft, ⟨true, true, true⟩, rfl⟩)

/-- What an instruction runs: BRK ends the evaluation, a LIT form and every other form run the body of their opcode. -/
theorem exec_cases (i : Instr) :
    (i = .brk ∧ ∀ s, exec i s = .next (endEvaluation s)) ∨
    (∃ (m : Mode) (v : Short), m ≠ ⟨false, false, false⟩ ∧ i = litInstr m v ∧
      ∃ v' : Short, ∀ s, exec i s = runOp m 0x00#5 (litBody v') s) ∨
    (∃ (o : Opcode) (m : Mode), i = o.form m ∧ ∀ s, exec i s = runOp m o.index (bodyOf o) s) := by
  rcases instr_cases i with rfl | ⟨m, v, hm, rfl⟩ | ⟨o, m, rfl⟩
  · exact .inl ⟨rfl, fun _ => rfl⟩
  · exact .inr (.inl ⟨m, v, hm, rfl, _, fun s => exec_litInstr m v s hm⟩)
  · exact .inr (.inr ⟨o, m, rfl, fun s => exec_form o m s⟩)

end Sys2Proof.Machine
end

