-- ==== Sys2Proof/Laws/PerInstr.lean ====
section
/-! SUPPORT. The family RoundTrip, instruction by instruction: the encoding of an instruction, whatever bytes follow it,
decodes to it and to those bytes. -/

namespace Sys2Proof.Laws.RoundTrip

/-- The bytes of `i`, followed by any bytes, decode to `i` and leave those bytes. -/
def Statement (i : Instr) : Prop := ∀ rest : List Byte, decode (encode i ++ rest) = .ok (i, rest)

theorem brk : Statement .brk := fun _ => rfl
theorem inc : Statement .inc := fun _ => rfl
theorem pop : Statement .pop := fun _ => rfl
theorem dup : Statement .dup := fun _ => rfl
theorem nip : Statement .nip := fun _ => rfl
theorem swp : Statement .swp := fun _ => rfl
theorem ovr : Statement .ovr := fun _ => rfl
theorem rot : Statement .rot := fun _ => rfl
theorem equ : Statement .equ := fun _ => rfl
theorem neq : Statement .neq := fun _ => rfl
theorem gth : Statement .gth := fun _ => rfl
theorem lth : Statement .lth := fun _ => rfl
theorem jmp : Statement .jmp := fun _ => rfl
theorem jnz : Statement .jnz := fun _ => rfl
theorem jsr : Statement .jsr := fun _ => rfl
theorem sth : Statement .sth := fun _ => rfl
theorem ldz : Statement .ldz := fun _ => rfl
theorem stz : Statement .stz := fun _ => rfl
theorem ldr : Statement .ldr := fun _ => rfl
theorem str : Statement .str := fun _ => rfl
theorem lda : Statement .lda := fun _ => rfl
theorem sta : Statement .sta := fun _ => rfl
theorem dei : Statement .dei := fun _ => rfl
theorem deo : Statement .deo := fun _ => rfl
theorem add : Statement .add := fun _ => rfl
theorem sub : Statement .sub := fun _ => rfl
theorem mul : Statement .mul := fun _ => rfl
theorem div : Statement .div := fun _ => rfl
theorem and : Statement .and := fun _ => rfl
theorem ora : Statement .ora := fun _ => rfl
theorem eor : Statement .eor := fun _ => rfl
theorem sft : Statement .sft := fun _ => rfl
theorem lit2 (v : Short) : Statement (.lit2 v) := fun rest =>
  congrArg (fun w => Except.ok (Instr.lit2 w, rest)) (join_hi_lo v)
theorem inc2 : Statement .inc2 := fun _ => rfl
theorem pop2 : Statement .pop2 := fun _ => rfl
theorem dup2 : Statement .dup2 := fun _ => rfl
theorem nip2 : Statement .nip2 := fun _ => rfl
theorem swp2 : Statement .swp2 := fun _ => rfl
theorem ovr2 : Statement .ovr2 := fun _ => rfl
theorem rot2 : Statement .rot2 := fun _ => rfl
theorem equ2 : Statement .equ2 := fun _ => rfl
theorem neq2 : Statement .neq2 := fun _ => rfl
theorem gth2 : Statement .gth2 := fun _ => rfl
theorem lth2 : Statement .lth2 := fun _ => rfl
theorem jmp2 : Statement .jmp2 := fun _ => rfl
theorem jnz2 : Statement .jnz2 := fun _ => rfl
theorem jsr2 : Statement .jsr2 := fun _ => rfl
theorem sth2 : Statement .sth2 := fun _ => rfl
theorem ldz2 : Statement .ldz2 := fun _ => rfl
theorem stz2 : Statement .stz2 := fun _ => rfl
theorem ldr2 : Statement .ldr2 := fun _ => rfl
theorem str2 : Statement .str2 := fun _ => rfl
theorem lda2 : Statement .lda2 := fun _ => rfl
theorem sta2 : Statement .sta2 := fun _ => rfl
theorem dei2 : Statement .dei2 := fun _ => rfl
theorem deo2 : Statement .deo2 := fun _ => rfl
theorem add2 : Statement .add2 := fun _ => rfl
theorem sub2 : Statement .sub2 := fun _ => rfl
theorem mul2 : Statement .mul2 := fun _ => rfl
theorem div2 : Statement .div2 := fun _ => rfl
theorem and2 : Statement .and2 := fun _ => rfl
theorem ora2 : Statement .ora2 := fun _ => rfl
theorem eor2 : Statement .eor2 := fun _ => rfl
theorem sft2 : Statement .sft2 := fun _ => rfl
theorem litr (v : Byte) : Statement (.litr v) := fun _ => rfl
theorem incr : Statement .incr := fun _ => rfl
theorem popr : Statement .popr := fun _ => rfl
theorem dupr : Statement .dupr := fun _ => rfl
theorem nipr : Statement .nipr := fun _ => rfl
theorem swpr : Statement .swpr := fun _ => rfl
theorem ovrr : Statement .ovrr := fun _ => rfl
theorem rotr : Statement .rotr := fun _ => rfl
theorem equr : Statement .equr := fun _ => rfl
theorem neqr : Statement .neqr := fun _ => rfl
theorem gthr : Statement .gthr := fun _ => rfl
theorem lthr : Statement .lthr := fun _ => rfl
theorem jmpr : Statement .jmpr := fun _ => rfl
theorem jnzr : Statement .jnzr := fun _ => rfl
theorem jsrr : Statement .jsrr := fun _ => rfl
theorem sthr : Statement .sthr := fun _ => rfl
theorem ldzr : Statement .ldzr := fun _ => rfl
theorem stzr : Statement .stzr := fun _ => rfl
theorem ldrr : Statement .ldrr := fun _ => rfl
theorem strr : Statement .strr := fun _ => rfl
theorem ldar : Statement .ldar := fun _ => rfl
theorem star : Statement .star := fun _ => rfl
theorem deir : Statement .deir := fun _ => rfl
theorem deor : Statement .deor := fun _ => rfl
theorem addr : Statement .addr := fun _ => rfl
theorem subr : Statement .subr := fun _ => rfl
theorem mulr : Statement .mulr := fun _ => rfl
theorem divr : Statement .divr := fun _ => rfl
theorem andr : Statement .andr := fun _ => rfl
theorem orar : Statement .orar := fun _ => rfl
theorem eorr : Statement .eorr := fun _ => rfl
theorem sftr : Statement .sftr := fun _ => rfl
theorem lit2r (v : Short) : Statement (.lit2r v) := fun rest =>
  congrArg (fun w => Except.ok (Instr.lit2r w, rest)) (join_hi_lo v)
theorem inc2r : Statement .inc2r := fun _ => rfl
theorem pop2r : Statement .pop2r := fun _ => rfl
theorem dup2r : Statement .dup2r := fun _ => rfl
theorem nip2r : Statement .nip2r := fun _ => rfl
theorem swp2r : Statement .swp2r := fun _ => rfl
theorem ovr2r : Statement .ovr2r := fun _ => rfl
theorem rot2r : Statement .rot2r := fun _ => rfl
theorem equ2r : Statement .equ2r := fun _ => rfl
theorem neq2r : Statement .neq2r := fun _ => rfl
theorem gth2r : Statement .gth2r := fun _ => rfl
theorem lth2r : Statement .lth2r := fun _ => rfl
theorem jmp2r : Statement .jmp2r := fun _ => rfl
theorem jnz2r : Statement .jnz2r := fun _ => rfl
theorem jsr2r : Statement .jsr2r := fun _ => rfl
theorem sth2r : Statement .sth2r := fun _ => rfl
theorem ldz2r : Statement .ldz2r := fun _ => rfl
theorem stz2r : Statement .stz2r := fun _ => rfl
theorem ldr2r : Statement .ldr2r := fun _ => rfl
theorem str2r : Statement .str2r := fun _ => rfl
theorem lda2r : Statement .lda2r := fun _ => rfl
theorem sta2r : Statement .sta2r := fun _ => rfl
theorem dei2r : Statement .dei2r := fun _ => rfl
theorem deo2r : Statement .deo2r := fun _ => rfl
theorem add2r : Statement .add2r := fun _ => rfl
theorem sub2r : Statement .sub2r := fun _ => rfl
theorem mul2r : Statement .mul2r := fun _ => rfl
theorem div2r : Statement .div2r := fun _ => rfl
theorem and2r : Statement .and2r := fun _ => rfl
theorem ora2r : Statement .ora2r := fun _ => rfl
theorem eor2r : Statement .eor2r := fun _ => rfl
theorem sft2r : Statement .sft2r := fun _ => rfl
theorem litk (v : Byte) : Statement (.litk v) := fun _ => rfl
theorem inck : Statement .inck := fun _ => rfl
theorem popk : Statement .popk := fun _ => rfl
theorem dupk : Statement .dupk := fun _ => rfl
theorem nipk : Statement .nipk := fun _ => rfl
theorem swpk : Statement .swpk := fun _ => rfl
theorem ovrk : Statement .ovrk := fun _ => rfl
theorem rotk : Statement .rotk := fun _ => rfl
theorem equk : Statement .equk := fun _ => rfl
theorem neqk : Statement .neqk := fun _ => rfl
theorem gthk : Statement .gthk := fun _ => rfl
theorem lthk : Statement .lthk := fun _ => rfl
theorem jmpk : Statement .jmpk := fun _ => rfl
theorem jnzk : Statement .jnzk := fun _ => rfl
theorem jsrk : Statement .jsrk := fun _ => rfl
theorem sthk : Statement .sthk := fun _ => rfl
theorem ldzk : Statement .ldzk := fun _ => rfl
theorem stzk : Statement .stzk := fun _ => rfl
theorem ldrk : Statement .ldrk := fun _ => rfl
theorem strk : Statement .strk := fun _ => rfl
theorem ldak : Statement .ldak := fun _ => rfl
theorem stak : Statement .stak := fun _ => rfl
theorem deik : Statement .deik := fun _ => rfl
theorem deok : Statement .deok := fun _ => rfl
theorem addk : Statement .addk := fun _ => rfl
theorem subk : Statement .subk := fun _ => rfl
theorem mulk : Statement .mulk := fun _ => rfl
theorem divk : Statement .divk := fun _ => rfl
theorem andk : Statement .andk := fun _ => rfl
theorem orak : Statement .orak := fun _ => rfl
theorem eork : Statement .eork := fun _ => rfl
theorem sftk : Statement .sftk := fun _ => rfl
theorem lit2k (v : Short) : Statement (.lit2k v) := fun rest =>
  congrArg (fun w => Except.ok (Instr.lit2k w, rest)) (join_hi_lo v)
theorem inc2k : Statement .inc2k := fun _ => rfl
theorem pop2k : Statement .pop2k := fun _ => rfl
theorem dup2k : Statement .dup2k := fun _ => rfl
theorem nip2k : Statement .nip2k := fun _ => rfl
theorem swp2k : Statement .swp2k := fun _ => rfl
theorem ovr2k : Statement .ovr2k := fun _ => rfl
theorem rot2k : Statement .rot2k := fun _ => rfl
theorem equ2k : Statement .equ2k := fun _ => rfl
theorem neq2k : Statement .neq2k := fun _ => rfl
theorem gth2k : Statement .gth2k := fun _ => rfl
theorem lth2k : Statement .lth2k := fun _ => rfl
theorem jmp2k : Statement .jmp2k := fun _ => rfl
theorem jnz2k : Statement .jnz2k := fun _ => rfl
theorem jsr2k : Statement .jsr2k := fun _ => rfl
theorem sth2k : Statement .sth2k := fun _ => rfl
theorem ldz2k : Statement .ldz2k := fun _ => rfl
theorem stz2k : Statement .stz2k := fun _ => rfl
theorem ldr2k : Statement .ldr2k := fun _ => rfl
theorem str2k : Statement .str2k := fun _ => rfl
theorem lda2k : Statement .lda2k := fun _ => rfl
theorem sta2k : Statement .sta2k := fun _ => rfl
theorem dei2k : Statement .dei2k := fun _ => rfl
theorem deo2k : Statement .deo2k := fun _ => rfl
theorem add2k : Statement .add2k := fun _ => rfl
theorem sub2k : Statement .sub2k := fun _ => rfl
theorem mul2k : Statement .mul2k := fun _ => rfl
theorem div2k : Statement .div2k := fun _ => rfl
theorem and2k : Statement .and2k := fun _ => rfl
theorem ora2k : Statement .ora2k := fun _ => rfl
theorem eor2k : Statement .eor2k := fun _ => rfl
theorem sft2k : Statement .sft2k := fun _ => rfl
theorem litkr (v : Byte) : Statement (.litkr v) := fun _ => rfl
theorem inckr : Statement .inckr := fun _ => rfl
theorem popkr : Statement .popkr := fun _ => rfl
theorem dupkr : Statement .dupkr := fun _ => rfl
theorem nipkr : Statement .nipkr := fun _ => rfl
theorem swpkr : Statement .swpkr := fun _ => rfl
theorem ovrkr : Statement .ovrkr := fun _ => rfl
theorem rotkr : Statement .rotkr := fun _ => rfl
theorem equkr : Statement .equkr := fun _ => rfl
theorem neqkr : Statement .neqkr := fun _ => rfl
theorem gthkr : Statement .gthkr := fun _ => rfl
theorem lthkr : Statement .lthkr := fun _ => rfl
theorem jmpkr : Statement .jmpkr := fun _ => rfl
theorem jnzkr : Statement .jnzkr := fun _ => rfl
theorem jsrkr : Statement .jsrkr := fun _ => rfl
theorem sthkr : Statement .sthkr := fun _ => rfl
theorem ldzkr : Statement .ldzkr := fun _ => rfl
theorem stzkr : Statement .stzkr := fun _ => rfl
theorem ldrkr : Statement .ldrkr := fun _ => rfl
theorem strkr : Statement .strkr := fun _ => rfl
theorem ldakr : Statement .ldakr := fun _ => rfl
theorem stakr : Statement .stakr := fun _ => rfl
theorem deikr : Statement .deikr := fun _ => rfl
theorem deokr : Statement .deokr := fun _ => rfl
theorem addkr : Statement .addkr := fun _ => rfl
theorem subkr : Statement .subkr := fun _ => rfl
theorem mulkr : Statement .mulkr := fun _ => rfl
theorem divkr : Statement .divkr := fun _ => rfl
theorem andkr : Statement .andkr := fun _ => rfl
theorem orakr : Statement .orakr := fun _ => rfl
theorem eorkr : Statement .eorkr := fun _ => rfl
theorem sftkr : Statement .sftkr := fun _ => rfl
theorem lit2kr (v : Short) : Statement (.lit2kr v) := fun rest =>
  congrArg (fun w => Except.ok (Instr.lit2kr w, rest)) (join_hi_lo v)
theorem inc2kr : Statement .inc2kr := fun _ => rfl
theorem pop2kr : Statement .pop2kr := fun _ => rfl
theorem dup2kr : Statement .dup2kr := fun _ => rfl
theorem nip2kr : Statement .nip2kr := fun _ => rfl
theorem swp2kr : Statement .swp2kr := fun _ => rfl
theorem ovr2kr : Statement .ovr2kr := fun _ => rfl
theorem rot2kr : Statement .rot2kr := fun _ => rfl
theorem equ2kr : Statement .equ2kr := fun _ => rfl
theorem neq2kr : Statement .neq2kr := fun _ => rfl
theorem gth2kr : Statement .gth2kr := fun _ => rfl
theorem lth2kr : Statement .lth2kr := fun _ => rfl
theorem jmp2kr : Statement .jmp2kr := fun _ => rfl
theorem jnz2kr : Statement .jnz2kr := fun _ => rfl
theorem jsr2kr : Statement .jsr2kr := fun _ => rfl
theorem sth2kr : Statement .sth2kr := fun _ => rfl
theorem ldz2kr : Statement .ldz2kr := fun _ => rfl
theorem stz2kr : Statement .stz2kr := fun _ => rfl
theorem ldr2kr : Statement .ldr2kr := fun _ => rfl
theorem str2kr : Statement .str2kr := fun _ => rfl
theorem lda2kr : Statement .lda2kr := fun _ => rfl
theorem sta2kr : Statement .sta2kr := fun _ => rfl
theorem dei2kr : Statement .dei2kr := fun _ => rfl
theorem deo2kr : Statement .deo2kr := fun _ => rfl
theorem add2kr : Statement .add2kr := fun _ => rfl
theorem sub2kr : Statement .sub2kr := fun _ => rfl
theorem mul2kr : Statement .mul2kr := fun _ => rfl
theorem div2kr : Statement .div2kr := fun _ => rfl
theorem and2kr : Statement .and2kr := fun _ => rfl
theorem ora2kr : Statement .ora2kr := fun _ => rfl
theorem eor2kr : Statement .eor2kr := fun _ => rfl
theorem sft2kr : Statement .sft2kr := fun _ => rfl

end Sys2Proof.Laws.RoundTrip
end

