-- ==== Sys2Proof/Laws/Ppu.lean ====
section
/-! SUPPORT. What the pixel operations do, bit by bit, and the geometry of the framebuffer. -/

namespace Sys2Proof.Machine

/-! ## Geometry -/

theorem strideFor_toNat (w : Short) : (strideFor w).toNat = (w.toNat + 7) / 8 := by
  have := w.isLt
  simp only [strideFor, Params.pixelsPerWord, BitVec.toNat_ofNat]
  omega

theorem inBounds_iff (p : Ppu) (x y : Short) :
    p.inBounds x y = true ↔ x.toNat < p.width.toNat ∧ y.toNat < p.height.toNat := by
  simp [Ppu.inBounds, BitVec.lt_def]

/-- The word column of a pixel in bounds lies in its row. -/
theorem column_lt {p : Ppu} (hs : p.stride = strideFor p.width) {x y : Short} (h : p.inBounds x y = true) :
    x.toNat / 8 < p.stride.toNat := by
  have := ((inBounds_iff p x y).1 h).1
  rw [hs, strideFor_toNat]
  omega

theorem index_eq (p : Ppu) (x y : Short) : p.index x y = y.toNat * p.stride.toNat + x.toNat / 8 := rfl

/-- The word of a pixel in bounds lies in the framebuffer. -/
theorem index_lt {p : Ppu} (hs : p.stride = strideFor p.width) {x y : Short} (h : p.inBounds x y = true) :
    p.index x y < p.words := by
  have h1 := column_lt hs h
  have h2 := ((inBounds_iff p x y).1 h).2
  rw [index_eq]
  unfold Ppu.words
  calc y.toNat * p.stride.toNat + x.toNat / 8 < y.toNat * p.stride.toNat + p.stride.toNat := by omega
    _ = (y.toNat + 1) * p.stride.toNat := by rw [Nat.add_mul, Nat.one_mul]
    _ ≤ p.height.toNat * p.stride.toNat := Nat.mul_le_mul_right _ h2
    _ = p.stride.toNat * p.height.toNat := Nat.mul_comm _ _

/-- The framebuffer has fewer than 2^32 words. -/
theorem words_lt {p : Ppu} (hs : p.stride = strideFor p.width) : p.words < 4294967296 := by
  have h1 := p.height.isLt
  have h2 := p.width.isLt
  have h3 : p.stride.toNat ≤ 8192 := by rw [hs, strideFor_toNat]; omega
  unfold Ppu.words
  calc p.stride.toNat * p.height.toNat ≤ 8192 * 65536 := Nat.mul_le_mul h3 (by omega)
    _ < 4294967296 := by norm_num

/-- The word column of a word index. -/
theorem index_mod {p : Ppu} (hs : p.stride = strideFor p.width) {x y : Short} (h : p.inBounds x y = true) :
    p.index x y % p.stride.toNat = x.toNat / 8 := by
  rw [index_eq, Nat.mul_comm, Nat.mul_add_mod, Nat.mod_eq_of_lt (column_lt hs h)]

/-- Two pixels in bounds share their word only in one row and one word column. -/
theorem index_inj {p : Ppu} (hs : p.stride = strideFor p.width) {x y x' y' : Short} (h : p.inBounds x y = true)
    (h' : p.inBounds x' y' = true) (he : p.index x y = p.index x' y') : y = y' ∧ x.toNat / 8 = x'.toNat / 8 := by
  have hm := index_mod hs h
  rw [he, index_mod hs h'] at hm
  refine ⟨BitVec.eq_of_toNat_eq ?_, hm.symm⟩
  rw [index_eq, index_eq, hm] at he
  have hpos : 0 < p.stride.toNat := Nat.lt_of_le_of_lt (Nat.zero_le _) (column_lt hs h)
  exact Nat.eq_of_mul_eq_mul_right hpos (by omega)

/-- Two different pixels in bounds that share their word have different nibbles in it. -/
theorem pixelShift_ne {p : Ppu} (hs : p.stride = strideFor p.width) {x y x' y' : Short} (h : p.inBounds x y = true)
    (h' : p.inBounds x' y' = true) (he : p.index x y = p.index x' y') (hne : x ≠ x' ∨ y ≠ y') :
    x.toNat % 8 ≠ x'.toNat % 8 := by
  obtain ⟨hy, hx⟩ := index_inj hs h h' he
  intro hm
  rcases hne with hne | hne
  · exact hne (BitVec.eq_of_toNat_eq (by omega))
  · exact hne hy

/-! ## A field of a word -/

/-- The bits of a word with a 2-bit field replaced. -/
theorem getLsbD_replaceField (old : PixelWord) (shift : Nat) (c : Colour) (i : Nat) (hi : i < 32) :
    (replaceField old shift c).getLsbD i =
      if shift ≤ i ∧ i < shift + 2 then c.getLsbD (i - shift) else old.getLsbD i := by
  have h3 : ∀ j : Nat, (3#32).getLsbD j = decide (j < 2) := by
    intro j
    rcases j with _ | _ | j
    · rfl
    · rfl
    · have : 3 < 2 ^ (j + 1 + 1) := by
        have := Nat.one_le_two_pow (n := j)
        rw [Nat.pow_succ, Nat.pow_succ]
        omega
      simp [BitVec.getLsbD, Nat.testBit_lt_two_pow this]
  simp only [replaceField, BitVec.getLsbD_or, BitVec.getLsbD_and, BitVec.getLsbD_not, BitVec.getLsbD_shiftLeft, hi, h3,
    BitVec.getLsbD_setWidth, decide_true, Bool.true_and]
  by_cases h1 : shift ≤ i
  · by_cases h2 : i < shift + 2
    · simp [h1, h2, show ¬ i < shift by omega, show i - shift < 2 by omega, show i - shift < 32 by omega]
    · have : c.getLsbD (i - shift) = false := BitVec.getLsbD_of_ge c _ (by omega)
      simp [h1, h2, show ¬ i < shift by omega, show ¬ i - shift < 2 by omega, this]
  · simp [h1, show i < shift by omega]

/-- The field that was replaced. -/
theorem field_replaceField_same (old : PixelWord) {shift : Nat} (c : Colour) (h : shift + 2 ≤ 32) :
    (replaceField old shift c).extractLsb' shift 2 = c := by
  apply BitVec.eq_of_getLsbD_eq
  intro i hi
  rw [BitVec.getLsbD_extractLsb', getLsbD_replaceField _ _ _ _ (by omega)]
  simp [hi]

/-- A field beside the replaced one. -/
theorem field_replaceField_other (old : PixelWord) {shift start len : Nat} (c : Colour) (h : start + len ≤ 32)
    (hd : start + len ≤ shift ∨ shift + 2 ≤ start) :
    (replaceField old shift c).extractLsb' start len = old.extractLsb' start len := by
  apply BitVec.eq_of_getLsbD_eq
  intro i hi
  rw [BitVec.getLsbD_extractLsb', BitVec.getLsbD_extractLsb', getLsbD_replaceField _ _ _ _ (by omega)]
  rw [if_neg (by omega)]

/-- Replacing two disjoint fields, in either order. -/
theorem replaceField_comm (old : PixelWord) {s s' : Nat} (c c' : Colour) (hd : s + 2 ≤ s' ∨ s' + 2 ≤ s) :
    replaceField (replaceField old s c) s' c' = replaceField (replaceField old s' c') s c := by
  apply BitVec.eq_of_getLsbD_eq
  intro i hi
  rw [getLsbD_replaceField _ _ _ _ hi, getLsbD_replaceField _ _ _ _ hi, getLsbD_replaceField _ _ _ _ hi,
    getLsbD_replaceField _ _ _ _ hi]
  split <;> split <;> first | rfl | omega

/-- Replacing a field by what it holds changes nothing. -/
theorem replaceField_self (old : PixelWord) (shift : Nat) (c : Colour)
    (he : old.extractLsb' shift 2 = c) : replaceField old shift c = old := by
  apply BitVec.eq_of_getLsbD_eq
  intro i hi
  rw [getLsbD_replaceField _ _ _ _ hi]
  split
  · next hr =>
    rw [← he, BitVec.getLsbD_extractLsb']
    simp [show i - shift < 2 by omega, show shift + (i - shift) = i by omega]
  · rfl

/-! ## Storing a word -/

theorem word_storeWord (p : Ppu) (i j : Nat) (new : PixelWord) :
    (p.storeWord i new).word j = if j = i then new else p.word j := by
  unfold Ppu.storeWord
  split
  · next h =>
    split
    · next hj => rw [hj, h]
    · rfl
  · simp only [Ppu.word, Cells.read_write]

@[simp] theorem storeWord_width (p : Ppu) (i : Nat) (new : PixelWord) : (p.storeWord i new).width = p.width := by
  unfold Ppu.storeWord; split <;> rfl
@[simp] theorem storeWord_height (p : Ppu) (i : Nat) (new : PixelWord) : (p.storeWord i new).height = p.height := by
  unfold Ppu.storeWord; split <;> rfl
@[simp] theorem storeWord_stride (p : Ppu) (i : Nat) (new : PixelWord) : (p.storeWord i new).stride = p.stride := by
  unfold Ppu.storeWord; split <;> rfl

@[simp] theorem write_width (p : Ppu) (layer : Layer) (x y : Short) (c : Colour) :
    (p.write layer x y c).width = p.width := by
  unfold Ppu.write; split <;> simp
@[simp] theorem write_height (p : Ppu) (layer : Layer) (x y : Short) (c : Colour) :
    (p.write layer x y c).height = p.height := by
  unfold Ppu.write; split <;> simp
@[simp] theorem write_stride (p : Ppu) (layer : Layer) (x y : Short) (c : Colour) :
    (p.write layer x y c).stride = p.stride := by
  unfold Ppu.write; split <;> simp

@[simp] theorem write_inBounds (p : Ppu) (layer : Layer) (x y x' y' : Short) (c : Colour) :
    (p.write layer x y c).inBounds x' y' = p.inBounds x' y' := by
  simp [Ppu.inBounds]

@[simp] theorem write_index (p : Ppu) (layer : Layer) (x y x' y' : Short) (c : Colour) :
    (p.write layer x y c).index x' y' = p.index x' y' := by
  simp [Ppu.index]

/-- A pixel write in bounds is a store of one word. -/
theorem write_in {p : Ppu} {x y : Short} (h : p.inBounds x y = true) (layer : Layer) (c : Colour) :
    p.write layer x y c =
      p.storeWord (p.index x y) (replaceField (p.word (p.index x y)) (pixelShift x + layerShift layer) c) := by
  simp [Ppu.write, h]

theorem write_out {p : Ppu} {x y : Short} (h : p.inBounds x y = false) (layer : Layer) (c : Colour) :
    p.write layer x y c = p := by
  simp [Ppu.write, h]

/-! ## What every drawing operation keeps -/

/-- What every operation of a list keeps, the whole list keeps. -/
theorem foldl_keeps {α σ : Type} {P : σ → Prop} {f : σ → α → σ} (hf : ∀ p a, P p → P (f p a)) (l : List α) :
    ∀ {p : σ}, P p → P (l.foldl f p) := by
  induction l with
  | nil => exact fun h => h
  | cons a rest ih => exact fun h => ih (hf _ a h)

theorem plot_keeps {P : Ppu → Prop} (hw : ∀ p layer x y c, P p → P (p.write layer x y c)) (q : Sprite) (ch : Colour)
    (v h : Nat) {p : Ppu} (hp : P p) : P (p.plot q ch v h) := by
  unfold Ppu.plot
  split
  · exact hw _ _ _ _ _ hp
  · exact hp

/-- What each single pixel write keeps, a whole blit keeps. -/
theorem blit_keeps {P : Ppu → Prop} (hw : ∀ p layer x y c, P p → P (p.write layer x y c)) (q : Sprite)
    (ch : Nat → Nat → Colour) {p : Ppu} (hp : P p) : P (p.blit q ch) := by
  unfold Ppu.blit
  generalize List.range 8 = l
  refine foldl_keeps (fun p v hp => ?_) l hp
  exact foldl_keeps (fun p h hp => plot_keeps hw q _ v h hp) l hp

/-- What a pixel write, a resize and a frame reset keep, every operation of the pixel device keeps. -/
theorem run_keeps {P : Ppu → Prop} (hw : ∀ p layer x y c, P p → P (p.write layer x y c))
    (hr : ∀ p w h, P p → P (p.resize w h)) (hf : ∀ p, P p → P p.frameReset) {p : Ppu} (m : Memory) (c : PpuCmd)
    (h : P p) : P (p.run m c) := by
  cases c with
  | read x y => exact h
  | write layer x y c => exact hw _ _ _ _ _ h
  | resize w h' => exact hr _ _ _ h
  | frameReset => exact hf _ h
  | blit1 q =>
    simp only [Ppu.run, Ppu.blit1]
    exact blit_keeps hw q (channel1 m q.addr) h
  | blit2 q =>
    simp only [Ppu.run, Ppu.blit2]
    exact blit_keeps hw q (channel2 m q.addr) h

end Sys2Proof.Machine
end

