-- ==== Sys2Proof/Laws/Runs.lean ====
section
/-! SUPPORT. What a whole instruction can do, from what its primitive micro-ops can do: the one induction that frames and
invariants are proved through. -/

namespace Sys2Proof.Machine

/-- Every run of `x` from `s` ends in a state related to `s`: by `R` where it completes, by `E` where it ends the
instruction. -/
def Runs (R : State → State → Prop) (E : State → Stop → State → Prop) {α : Type} (x : MicroOp α) : Prop :=
  ∀ s, match x s with
    | .ok _ t => R s t
    | .error e t => E s e t

/-- The relations of `Runs` compose. -/
structure Composes (R : State → State → Prop) (E : State → Stop → State → Prop) : Prop where
  refl : ∀ s, R s s
  trans : ∀ s t u, R s t → R t u → R s u
  stop : ∀ s t e u, R s t → E t e u → E s e u

/-- What pushes on stack `i` do is within the relations. -/
structure AllowsPush (R : State → State → Prop) (E : State → Stop → State → Prop) (i : StackId) : Prop where
  put : ∀ s b, (s.stack i).ptr ≠ Params.stackDepth → R s (s.setStack i ((s.stack i).push8 b))
  raises : ∀ s k, E s .fault (s.setStack i ((s.stack i).withFault k))

/-- What pops and pushes on stack `i` do is within the relations. -/
structure AllowsStack (R : State → State → Prop) (E : State → Stop → State → Prop) (i : StackId) : Prop
    extends AllowsPush R E i where
  move : ∀ s S, S.dat = (s.stack i).dat → S.fault = (s.stack i).fault → R s (s.setStack i S)

/-- What the device bus does at any port is within the relations. -/
structure AllowsBus (R : State → State → Prop) (E : State → Stop → State → Prop) : Prop where
  store : ∀ s p l v, R s (s.setDev p ((s.dev p).busWrite l v))
  talks : ∀ s p l b, R s (s.afterTalk p l b)
  refuses : ∀ s p, s.talkReenters p = true → E s (.refuse .reentrantEvaluate) s

variable {R : State → State → Prop} {E : State → Stop → State → Prop} {α β : Type}

theorem runs_pure (hc : Composes R E) (a : α) : Runs R E (pure a : MicroOp α) := fun s => hc.refl s

theorem runs_bind (hc : Composes R E) {x : MicroOp α} {f : α → MicroOp β} (hx : Runs R E x) (hf : ∀ a, Runs R E (f a)) :
    Runs R E (x >>= f) := by
  intro s
  have h := hx s
  cases h1 : x s with
  | error e t => rw [bind_error h1]; rw [h1] at h; exact h
  | ok a t =>
    rw [bind_ok h1]
    rw [h1] at h
    have h' := hf a t
    cases h2 : f a t with
    | error e u => rw [h2] at h'; exact hc.stop _ _ _ _ h h'
    | ok b u => rw [h2] at h'; exact hc.trans _ _ _ h h'

theorem runs_getPc (hc : Composes R E) : Runs R E getPc := fun s => hc.refl s

theorem runs_setPc (h : ∀ s a, R s { s with pc := a }) (a : Short) : Runs R E (setPc a) := fun s => h s a

theorem runs_memRead (hc : Composes R E) (a : Short) (w : Width) : Runs R E (memRead a w) := fun s => hc.refl s

theorem runs_memWrite (h : ∀ s a v w, R s { s with mem := s.mem.write a v w }) (a : Short) (w : Width) (v : Short) :
    Runs R E (memWrite a w v) := fun s => h s a v w

theorem runs_raise {i : StackId} (h : AllowsPush R E i) (k : FaultKind) : Runs R E (raise (α := α) i k) :=
  fun s => h.raises s k

theorem runs_push8 {i : StackId} (h : AllowsPush R E i) (b : Byte) : Runs R E (push8 i b) := by
  intro s
  unfold push8
  by_cases hf : (s.stack i).ptr = Params.stackDepth
  · rw [if_pos hf]; exact h.raises s .overflow
  · rw [if_neg hf]; exact h.put s b hf

theorem runs_push (hc : Composes R E) {i : StackId} (h : AllowsPush R E i) (w : Width) (v : Short) :
    Runs R E (push i w v) := by
  cases w
  · exact runs_push8 h _
  · exact runs_bind hc (runs_push8 h _) fun _ => runs_push8 h _

theorem runs_pop8 {c : Ctx} (h : AllowsStack R E c.src) : Runs R E (pop8 c) := by
  intro s
  unfold pop8
  dsimp only
  by_cases hk : c.keep
  · rw [if_pos hk]
    by_cases h0 : (s.stack c.src).kptr = 0#8
    · rw [if_pos h0]; exact h.raises s .underflow
    · rw [if_neg h0]; exact h.move s _ rfl rfl
  · rw [if_neg hk]
    by_cases h0 : (s.stack c.src).ptr = 0#8
    · rw [if_pos h0]; exact h.raises s .underflow
    · rw [if_neg h0]; exact h.move s _ rfl rfl

theorem runs_pop (hc : Composes R E) {c : Ctx} (h : AllowsStack R E c.src) (w : Width) : Runs R E (pop c w) := by
  cases w
  · exact runs_bind hc (runs_pop8 h) fun _ => runs_pure hc _
  · exact runs_bind hc (runs_pop8 h) fun _ => runs_bind hc (runs_pop8 h) fun _ => runs_pure hc _

theorem runs_talk (h : AllowsBus R E) (p l : Nibble) (b : Bool) : Runs R E (talk p l b) := by
  intro s
  unfold talk
  by_cases hr : s.talkReenters p
  · rw [if_pos hr]; exact h.refuses s p hr
  · rw [if_neg hr]; exact h.talks s p l b

theorem runs_deviceRead (hc : Composes R E) (h : AllowsBus R E) (p l : Nibble) : Runs R E (deviceRead p l) :=
  runs_bind hc (runs_talk h p l false) fun _ s => hc.refl s

theorem runs_deviceWrite (hc : Composes R E) (h : AllowsBus R E) (p l : Nibble) (v : Byte) : Runs R E (deviceWrite p l v) :=
  runs_bind hc (fun s => h.store s p l v) fun _ => runs_talk h p l true

theorem runs_devRead (hc : Composes R E) (h : AllowsBus R E) (a : Byte) (w : Width) : Runs R E (devRead a w) := by
  cases w
  · exact runs_bind hc (runs_deviceRead hc h _ _) fun _ => runs_pure hc _
  · exact runs_bind hc (runs_deviceRead hc h _ _) fun _ => runs_bind hc (runs_deviceRead hc h _ _) fun _ => runs_pure hc _

theorem runs_devWrite (hc : Composes R E) (h : AllowsBus R E) (a : Byte) (w : Width) (v : Short) :
    Runs R E (devWrite a w v) := by
  cases w
  · exact runs_deviceWrite hc h _ _ _
  · exact runs_bind hc (runs_deviceWrite hc h _ _ _) fun _ => runs_deviceWrite hc h _ _ _

/-! ## Bodies -/

theorem runs_litBody (hc : Composes R E) (m : Mode) (hs : AllowsStack R E m.src) (hp : ∀ s a, R s { s with pc := a })
    (v : Short) : Runs R E (litBody v m.ctx) :=
  runs_bind hc (runs_push hc hs.toAllowsPush _ _) fun _ => runs_bind hc (runs_getPc hc) fun _ => runs_setPc hp _

/-- The bodies, by what they use: their source stack, and some of them pc, the other stack, memory or the bus. -/
theorem runs_bodyOf (o : Opcode) (m : Mode) (hc : Composes R E) (hs : AllowsStack R E m.src)
    (hp : o = .jmp ∨ o = .jnz ∨ o = .jsr → ∀ s a, R s { s with pc := a })
    (hd : o = .jsr ∨ o = .sth → AllowsPush R E m.dst)
    (hm : o = .stz ∨ o = .str ∨ o = .sta → ∀ s a v w, R s { s with mem := s.mem.write a v w })
    (hb : o = .dei ∨ o = .deo → AllowsBus R E) : Runs R E (bodyOf o m.ctx) := by
  have pw : Runs R E (popW m.ctx) := runs_pop hc hs _
  have pb : Runs R E (pop m.ctx .byte) := runs_pop hc hs _
  have ps : Runs R E (pop m.ctx .short) := runs_pop hc hs _
  have qw : ∀ v, Runs R E (pushW m.ctx v) := fun v => runs_push hc hs.toAllowsPush _ v
  have bin : ∀ f, Runs R E (binary f m.ctx) := fun f => runs_bind hc pw fun _ => runs_bind hc pw fun _ => qw _
  have cmp : ∀ f, Runs R E (comparison f m.ctx) := fun f =>
    runs_bind hc pw fun _ => runs_bind hc pw fun _ => runs_push hc hs.toAllowsPush _ _
  have gp := runs_getPc hc
  have mr := runs_memRead hc
  cases o with
  | inc => exact runs_bind hc pw fun _ => qw _
  | pop => exact runs_bind hc pw fun _ => runs_pure hc _
  | dup => exact runs_bind hc pw fun _ => runs_bind hc (qw _) fun _ => qw _
  | nip => exact runs_bind hc pw fun _ => runs_bind hc pw fun _ => qw _
  | swp => exact runs_bind hc pw fun _ => runs_bind hc pw fun _ => runs_bind hc (qw _) fun _ => qw _
  | ovr =>
    exact runs_bind hc pw fun _ => runs_bind hc pw fun _ => runs_bind hc (qw _) fun _ => runs_bind hc (qw _) fun _ => qw _
  | rot =>
    exact runs_bind hc pw fun _ => runs_bind hc pw fun _ => runs_bind hc pw fun _ => runs_bind hc (qw _) fun _ =>
      runs_bind hc (qw _) fun _ => qw _
  | equ => exact cmp _
  | neq => exact cmp _
  | gth => exact cmp _
  | lth => exact cmp _
  | jmp => exact runs_bind hc pw fun _ => runs_bind hc gp fun _ => runs_setPc (hp (by simp)) _
  | jnz =>
    refine runs_bind hc pw fun _ => runs_bind hc pb fun f => runs_bind hc gp fun _ => ?_
    split
    · exact runs_setPc (hp (by simp)) _
    · exact runs_pure hc _
  | jsr =>
    exact runs_bind hc pw fun _ => runs_bind hc gp fun _ => runs_bind hc (runs_push hc (hd (by simp)) _ _) fun _ =>
      runs_setPc (hp (by simp)) _
  | sth => exact runs_bind hc pw fun _ => runs_push hc (hd (by simp)) _ _
  | ldz => exact runs_bind hc pb fun _ => runs_bind hc (mr _ _) fun _ => qw _
  | stz => exact runs_bind hc pb fun _ => runs_bind hc pw fun _ => runs_memWrite (hm (by simp)) _ _ _
  | ldr => exact runs_bind hc pb fun _ => runs_bind hc gp fun _ => runs_bind hc (mr _ _) fun _ => qw _
  | str =>
    exact runs_bind hc pb fun _ => runs_bind hc pw fun _ => runs_bind hc gp fun _ => runs_memWrite (hm (by simp)) _ _ _
  | lda => exact runs_bind hc ps fun _ => runs_bind hc (mr _ _) fun _ => qw _
  | sta => exact runs_bind hc ps fun _ => runs_bind hc pw fun _ => runs_memWrite (hm (by simp)) _ _ _
  | dei => exact runs_bind hc pb fun _ => runs_bind hc (runs_devRead hc (hb (by simp)) _ _) fun _ => qw _
  | deo => exact runs_bind hc pb fun _ => runs_bind hc pw fun _ => runs_devWrite hc (hb (by simp)) _ _ _
  | add => exact bin _
  | sub => exact bin _
  | mul => exact bin _
  | div =>
    refine runs_bind hc pw fun a => runs_bind hc pw fun _ => ?_
    split
    · exact runs_raise hs.toAllowsPush _
    · exact qw _
  | and => exact bin _
  | ora => exact bin _
  | eor => exact bin _
  | sft => exact runs_bind hc pb fun _ => runs_bind hc pw fun _ => qw _

/-! ## The frame of one instruction -/

/-- What a next state of an instruction came from: its body, run from the state whose kept pointer was loaded, completed
or raised a fault, and the check after the step followed. -/
theorem runOp_next {m : Mode} {op : BitVec 5} {body : Ctx → MicroOp Unit} {s t : State} (hr : Runs R E (body m.ctx))
    (h : runOp m op body s = .next t) :
    ∃ u, (R (beginStep m.ctx s) u ∨ E (beginStep m.ctx s) .fault u) ∧ settle (m.opcodeByte op) u = .next t := by
  have hb := hr (beginStep m.ctx s)
  unfold runOp at h
  split at h
  · next he => rw [he] at hb; exact ⟨_, .inl hb, h⟩
  · next he => rw [he] at hb; exact ⟨_, .inr hb, h⟩
  · cases h

/-- What the check after a step answers. -/
theorem settle_next {op : Byte} {u t : State} (h : settle op u = .next t) :
    (u.faultsClear ∧ t = u) ∨ ∃ i k, (u.stack i).fault = some k ∧ t = takeFault i k op u := by
  unfold settle at h
  cases hw : u.wst.fault with
  | some k => rw [hw] at h; cases h; exact .inr ⟨.working, k, hw, rfl⟩
  | none =>
    rw [hw] at h
    cases hr : u.rst.fault with
    | some k => rw [hr] at h; cases h; exact .inr ⟨.ret, k, hr, rfl⟩
    | none => rw [hr] at h; cases h; exact .inl ⟨⟨hw, hr⟩, rfl⟩

/-- The start of a step is within what pops may do. -/
theorem beginStep_keeps (hc : Composes R E) (m : Mode) (h : AllowsStack R E m.src) (s : State) :
    R s (beginStep m.ctx s) := by
  unfold beginStep
  split
  · exact h.move _ _ rfl rfl
  · exact hc.refl s

/-- The frame of an instruction: a relation that its micro-ops keep, whether they complete or raise, and that taking a
fault keeps, relates the states before and after. -/
theorem runOp_keeps (hc : Composes R fun s _ t => R s t) {m : Mode} {op : BitVec 5} {body : Ctx → MicroOp Unit}
    {s t : State} (hs : AllowsStack R (fun s _ t => R s t) m.src) (hr : Runs R (fun s _ t => R s t) (body m.ctx))
    (hf : ∀ s i k b, R s (takeFault i k b s)) (h : runOp m op body s = .next t) : R s t := by
  obtain ⟨u, h1, h2⟩ := runOp_next hr h
  have hsu : R s u := hc.trans _ _ _ (beginStep_keeps hc m hs s) (h1.elim id id)
  rcases settle_next h2 with ⟨_, rfl⟩ | ⟨i, k, _, rfl⟩
  · exact hsu
  · exact hc.trans _ _ _ hsu (hf _ _ _ _)

/-- The check after a step answers a next state always. -/
theorem settle_total (op : Byte) (u : State) : ∃ t, settle op u = .next t := by
  unfold settle
  split
  · exact ⟨_, rfl⟩
  · split <;> exact ⟨_, rfl⟩

/-- A running step executes an instruction that a fetch found. -/
theorem fetch_decodes (s : State) : ∃ i rest, decode (fetchBytes s) = .ok (i, rest) := by
  unfold fetchBytes
  generalize s.mem.byte s.pc = b
  generalize s.mem.byte (s.pc + 1) = x
  generalize s.mem.byte (s.pc + 2) = y
  unfold decode
  dsimp only
  split
  · exact ⟨_, _, rfl⟩
  · generalize modeOf b = m
    split
    · exact ⟨_, _, rfl⟩
    · obtain ⟨_ | _, _ | _, _ | _⟩ := m <;> exact ⟨_, _, rfl⟩

theorem step_running {s : State} (hr : s.running = true) :
    ∃ i rest, decode (fetchBytes s) = .ok (i, rest) ∧ step s = exec i { s with pc := s.pc + 1#16 } := by
  obtain ⟨i, rest, h⟩ := fetch_decodes s
  refine ⟨i, rest, h, ?_⟩
  unfold step instructionStep
  rw [if_pos hr, h]

end Sys2Proof.Machine
end

