-- ==== Sys2Proof/Laws/Steps.lean ====
section
/-! SUPPORT. What one step of the machine can do, said once: a property kept by each of its few kinds of change is kept by
every step. -/

namespace Sys2Proof.Machine

/-- A property kept by every change a step is made of: of pc, a stack, a port, memory, the pixel device, the input lists,
the load window, the last answers, and the entry into an evaluation or out of one. -/
structure KeptByChanges (P : State → Prop) : Prop where
  pc : ∀ s a, P s → P { s with pc := a }
  stack : ∀ s i S, P s → S.dat[255] = (s.stack i).dat[255] → P (s.setStack i S)
  dev : ∀ s p d, P s → P (s.setDev p d)
  store : ∀ s a l, P s → P { s with mem := s.mem.setBytes a l }
  draw : ∀ s c, P s → P (s.runPpu c)
  replies : ∀ s l n, P s → P { s with talkIn := l, draws := n }
  pending : ∀ s l, P s → P { s with hostIn := l }
  window : ∀ s b, P s → P { s with loadWindow := b }
  answer : ∀ s r, P s → P { s with result := r }
  readOut : ∀ s x n, P s → P { s with nibble := x, draws := n }
  enter : ∀ s v, P s → P (enterEvaluation v s)
  leave : ∀ s, P s → P (endEvaluation s)
  report : ∀ s i k b, P s → P (takeFault i k b s)

variable {P : State → Prop}

theorem KeptByChanges.act (h : KeptByChanges P) (p : Nibble) (s : State) (x : TalkAction) (hs : P s) : P (s.act p x) := by
  cases x with
  | setReg l v => exact h.dev s p _ hs
  | setVector v => exact h.dev s p _ hs
  | memWrite a v => exact h.store s a [v] hs
  | ppu c => exact h.draw s c hs

theorem KeptByChanges.afterTalk (h : KeptByChanges P) (p l : Nibble) (b : Bool) (s : State) (hs : P s) :
    P (s.afterTalk p l b) :=
  afterTalk_induction l b hs (fun _ _ => h.replies s _ _ hs) fun t x => h.act p t x

/-- Every instruction keeps it. -/
theorem KeptByChanges.exec (h : KeptByChanges P) {i : Instr} {s t : State} (hs : P s) (he : exec i s = .next t) : P t := by
  have hc : Composes (fun s t => P s → P t) fun s _ t => P s → P t :=
    ⟨fun _ hp => hp, fun _ _ _ h1 h2 hp => h2 (h1 hp), fun _ _ _ _ h1 h2 hp => h2 (h1 hp)⟩
  have hst : ∀ i, AllowsStack (fun s t => P s → P t) (fun s _ t => P s → P t) i := fun i =>
    { move := fun s S hd _ hp => h.stack s i S hp (by rw [hd])
      put := fun s b hne hp => h.stack s i _ hp (by
        have : (s.stack i).ptr.toNat ≠ 255 := fun e => hne (BitVec.eq_of_toNat_eq e)
        simp [Stack.push8, this])
      raises := fun s k hp => h.stack s i _ hp rfl }
  have hb : AllowsBus (fun s t => P s → P t) fun s _ t => P s → P t :=
    { store := fun s p l v hp => h.dev s p _ hp
      talks := fun s p l b hp => h.afterTalk p l b s hp
      refuses := fun _ _ _ hp => hp }
  have hm : ∀ (s : State) (a v : Short) (w : Width), P s → P { s with mem := s.mem.write a v w } := by
    intro s a v w hp
    cases w
    · exact h.store s a [loByte v] hp
    · exact h.store s a [hiByte v, loByte v] hp
  rcases exec_cases i with ⟨rfl, hx⟩ | ⟨m, v, _, rfl, v', hx⟩ | ⟨o, m, rfl, hx⟩
  · rw [hx] at he
    cases he
    exact h.leave s hs
  · rw [hx] at he
    exact runOp_keeps hc (hst _) (runs_litBody hc m (hst _) (fun s a => h.pc s a) v') (fun s i k b => h.report s i k b) he hs
  · rw [hx] at he
    exact runOp_keeps hc (hst _)
      (runs_bodyOf o m hc (hst _) (fun _ s a => h.pc s a) (fun _ => (hst _).toAllowsPush) (fun _ => hm) fun _ => hb)
      (fun s i k b => h.report s i k b) he hs

/-- Every host transaction keeps it. -/
theorem KeptByChanges.hostStep (h : KeptByChanges P) {c : HostCmd} {s t : State} (hs : P s)
    (he : hostStep c s = .next t) : P t := by
  cases c with
  | load rom =>
    simp only [Machine.hostStep, hostLoad] at he
    split at he
    · split at he
      · cases he
        exact h.window _ _ (h.store s _ rom hs)
      · cases he
    · cases he
  | evaluate v =>
    cases he
    unfold evaluate
    split
    · exact h.window _ _ (h.answer s _ hs)
    · exact h.window _ _ (h.enter s v hs)
  | pokeMem a v =>
    cases he
    exact h.store s a [v] hs
  | pokeDev p l v =>
    cases he
    exact h.dev s p _ hs
  | ppu c =>
    cases he
    cases c with
    | read x y =>
      simp only [hostPpu, State.readPixel]
      split
      · exact h.readOut s _ s.draws hs
      · exact h.readOut s _ _ hs
    | write layer x y c => exact h.draw s _ hs
    | resize w h' => exact h.draw s _ hs
    | frameReset => exact h.draw s _ hs
    | blit1 q => exact h.draw s _ hs
    | blit2 q => exact h.draw s _ hs

/-- Every step keeps it. -/
theorem KeptByChanges.step (h : KeptByChanges P) {s t : State} (hs : P s) (he : step s = .next t) : P t := by
  cases hr : s.running with
  | true =>
    obtain ⟨i, rest, _, hx⟩ := step_running hr
    rw [hx] at he
    exact h.exec (h.pc s _ hs) he
  | false =>
    unfold Machine.step idleStep at he
    rw [if_neg (by simp [hr])] at he
    split at he
    · cases he
      exact hs
    · exact h.hostStep (h.pending s _ hs) he

end Sys2Proof.Machine
end

