-- ==== Sys2Proof/Tests/Slice0.lean ====
section
/-! SUPPORT. Tests of one step on small states, with results from outside the model (spec/95_test_vectors.md, by its own
numbers, and the encodings of spec/30_encoding.md), and a witness for the hypotheses of every statement. -/

set_option maxRecDepth 100000

namespace Sys2Proof.Tests

open Sys2Proof Sys2Proof.Machine

/-! ## Small states and what is looked at -/

/-- A stack that holds the bytes of a list, bottom to top. -/
def stackOf (l : List Byte) : Stack := { Stack.reset with dat := Vector.ofFn fun i => l.getD i.val 0x00#8, ptr := BitVec.ofNat 8 l.length }

/-- A machine in its reset state but for its stacks, pc and the code at pc, in a running evaluation. -/
def machine (w r : List Byte) (pc : Short) (code : List Byte) : State :=
  { State.reset with wst := stackOf w, rst := stackOf r, pc := pc, mem := Memory.setBytes [] pc code, running := true }

/-- The same with bytes of memory and device registers set. -/
def preset (s : State) (cells : List (Short × Byte)) (regs : List (Nibble × Nibble × Byte)) : State :=
  let t := { s with mem := cells.foldl (fun m c => m.setByte c.1 c.2) s.mem }
  regs.foldl (fun t r => t.setDev r.1 ((t.dev r.1).put r.2.1 r.2.2)) t

/-- The bytes a stack holds, bottom to top. -/
def held (S : Stack) : List Byte := S.dat.toList.take S.ptr.toNat

/-- The next state, if there is one. -/
def after (o : Host.Outcome State Fault Refusal) : Option State :=
  match o with
  | .next t => some t
  | .fault _ => none
  | .refused _ => none

/-- What a step left: both stacks, pc, and the fault it reported. -/
def result (o : Host.Outcome State Fault Refusal) : Option (List Byte × List Byte × Short × Option (FaultKind × StackId)) :=
  (after o).map fun t => (held t.wst, held t.rst, t.pc, t.lastFault.map fun r => (r.kind, r.stack))

/-- Bytes of memory after a step. -/
def bytesAfter (o : Host.Outcome State Fault Refusal) (addresses : List Short) : Option (List Byte) :=
  (after o).map fun t => addresses.map t.mem.byte

/-- Device registers after a step. -/
def registersAfter (o : Host.Outcome State Fault Refusal) (places : List (Nibble × Nibble)) : Option (List Byte) :=
  (after o).map fun t => places.map fun q => (t.dev q.1).get q.2

/-- A port's vector after a step. -/
def vectorAfter (o : Host.Outcome State Fault Refusal) (p : Nibble) : Option Short := (after o).map fun t => (t.dev p).vector

/-! ## Decoding: bytes written out bit by bit from R110, R111, R114 (vectors E1 to E12 and one more of each family) -/

theorem test_decode_brk : decode [0b00000000#8] = .ok (.brk, []) := by decide
theorem test_decode_litk : decode [0b10000000#8, 0x12#8, 0x01#8] = .ok (.litk 0x12#8, [0x01#8]) := by decide
theorem test_decode_lit2 : decode [0b00100000#8, 0x12#8, 0x34#8] = .ok (.lit2 0x1234#16, []) := by decide
theorem test_decode_lit2kr : decode [0b11100000#8, 0xAB#8, 0xCD#8] = .ok (.lit2kr 0xABCD#16, []) := by decide
theorem test_decode_incr : decode [0b01000001#8] = .ok (.incr, []) := by decide
theorem test_decode_rot2 : decode [0b00100111#8] = .ok (.rot2, []) := by decide
theorem test_decode_equ : decode [0b00001000#8] = .ok (.equ, []) := by decide
theorem test_decode_jmp2r : decode [0b01101100#8] = .ok (.jmp2r, []) := by decide
theorem test_decode_sthk : decode [0b10001111#8] = .ok (.sthk, []) := by decide
theorem test_decode_ldak : decode [0b10010100#8] = .ok (.ldak, []) := by decide
theorem test_decode_deo2 : decode [0b00110111#8] = .ok (.deo2, []) := by decide
theorem test_decode_add : decode [0b00011000#8] = .ok (.add, []) := by decide
theorem test_decode_add2kr : decode [0b11111000#8] = .ok (.add2kr, []) := by decide
theorem test_decode_sft : decode [0b00011111#8] = .ok (.sft, []) := by decide
theorem test_decode_sftk : decode [0b10011111#8] = .ok (.sftk, []) := by decide
theorem test_decode_sft2kr : decode [0b11111111#8] = .ok (.sft2kr, []) := by decide

/-- The lengths of vectors E1 to E12. -/
theorem test_lengths : [0x00#8, 0x80#8, 0x20#8, 0xE0#8, 0x18#8, 0xFF#8].map lengthOf = [1, 2, 3, 3, 1, 1] := by decide

/-- Missing bytes are refused by name. -/
theorem test_decode_nothing : decode [] = .error .noBytes := by decide
theorem test_decode_half_a_literal : decode [0x20#8, 0x12#8] = .error .truncatedLiteral := by decide

/-- Table words: a row of one byte, and LIT with its literal byte of zeros. -/
theorem test_table_word_add : decodeTableWord 8 0x18 = some .add := by decide
theorem test_table_word_lit : decodeTableWord 8 0x80 = some (.litk 0x00#8) := by decide

/-- A table word runs as the first instruction after reset: ADD on an empty stack is reported as the Underflow it is. -/
theorem test_first_instruction : result (step (State.reset.withFetchWord 8 0x18)) =
    some ([], [], 0x0001#16, some (.underflow, .working)) := by decide

/-- Every opcode byte of the opcode map (R117) decodes to one form of each mode, so the map has 256 entries. -/
theorem test_opcode_bytes_roundtrip : (List.range 256).all (fun n =>
    match decode [BitVec.ofNat 8 n, 0x00#8, 0x00#8] with
    | .ok (i, _) => (encode i).head? == some (BitVec.ofNat 8 n)
    | .error _ => false) = true := by decide

/-! ## WellFormed: an ill-formed term for each check that can refuse -/

theorem test_rom_that_fits : romFits (List.replicate 65280 0x00#8) = true := by
  unfold romFits; rw [List.length_replicate]; decide
theorem test_rom_too_long_is_ill_formed : romFits (List.replicate 65281 0x00#8) = false := by
  unfold romFits; rw [List.length_replicate]; decide
theorem test_load_too_long_is_ill_formed : (HostCmd.load (List.replicate 65281 0x00#8)).wellFormed = false :=
  test_rom_too_long_is_ill_formed
theorem test_reentrant_reply_is_ill_formed : (TalkReply.evaluates 0x0100#16).wellFormed = false := by decide
theorem test_every_instruction_is_well_formed : Instr.wellFormed (.lit2 0xFFFF#16) = true := by decide

/-! ## One step of an instruction (vectors V1 to V148) -/

theorem test_lit_V1 : result (step (machine [] [] 0x0200#16 [0x80#8, 0x12#8])) =
    some ([0x12#8], [], 0x0202#16, none) := by decide
theorem test_lit2_V7 : result (step (machine (List.replicate 254 0x00#8) [] 0x0200#16 [0xA0#8, 0x12#8, 0x34#8])) =
    some (List.replicate 254 0x00#8 ++ [0x12#8], [], 0x0201#16, some (.overflow, .working)) := by decide
theorem test_inc2_V10 : result (step (machine [0xFF#8, 0xFF#8] [] 0x0200#16 [0x21#8])) =
    some ([0x00#8, 0x00#8], [], 0x0201#16, none) := by decide
theorem test_inc2_V12 : result (step (machine [0x05#8] [] 0x0200#16 [0x21#8])) =
    some ([], [], 0x0201#16, some (.underflow, .working)) := by decide
theorem test_pop2_V14 : result (step (machine [0x01#8, 0x02#8, 0x03#8] [] 0x0200#16 [0x22#8])) =
    some ([0x01#8], [], 0x0201#16, none) := by decide
theorem test_popk_V17 : result (step (machine [] [] 0x0200#16 [0x82#8])) =
    some ([], [], 0x0201#16, some (.underflow, .working)) := by decide
theorem test_dupk_V20 : result (step (machine [0x07#8] [] 0x0200#16 [0x83#8])) =
    some ([0x07#8, 0x07#8, 0x07#8], [], 0x0201#16, none) := by decide
theorem test_dup2_V19 : result (step (machine [0x12#8, 0x34#8] [] 0x0200#16 [0x23#8])) =
    some ([0x12#8, 0x34#8, 0x12#8, 0x34#8], [], 0x0201#16, none) := by decide
theorem test_nip2_V23 : result (step (machine [0x11#8, 0x22#8, 0x33#8, 0x44#8] [] 0x0200#16 [0x24#8])) =
    some ([0x33#8, 0x44#8], [], 0x0201#16, none) := by decide
theorem test_nip_V25 : result (step (machine [0x01#8] [] 0x0200#16 [0x04#8])) =
    some ([], [], 0x0201#16, some (.underflow, .working)) := by decide
theorem test_swp2_V27 : result (step (machine [0x12#8, 0x34#8, 0x56#8, 0x78#8] [] 0x0200#16 [0x25#8])) =
    some ([0x56#8, 0x78#8, 0x12#8, 0x34#8], [], 0x0201#16, none) := by decide
theorem test_swpr_V29 : result (step (machine [] [0x01#8, 0x02#8] 0x0200#16 [0x45#8])) =
    some ([], [0x02#8, 0x01#8], 0x0201#16, none) := by decide
theorem test_ovr2_V31 : result (step (machine [0x11#8, 0x22#8, 0x33#8, 0x44#8] [] 0x0200#16 [0x26#8])) =
    some ([0x11#8, 0x22#8, 0x33#8, 0x44#8, 0x11#8, 0x22#8], [], 0x0201#16, none) := by decide
theorem test_ovrk_V32 : result (step (machine [0x01#8, 0x02#8] [] 0x0200#16 [0x86#8])) =
    some ([0x01#8, 0x02#8, 0x01#8, 0x02#8, 0x01#8], [], 0x0201#16, none) := by decide
theorem test_rot2_V34 : result (step (machine [0xA1#8, 0xA2#8, 0xB1#8, 0xB2#8, 0xC1#8, 0xC2#8] [] 0x0200#16 [0x27#8])) =
    some ([0xB1#8, 0xB2#8, 0xC1#8, 0xC2#8, 0xA1#8, 0xA2#8], [], 0x0201#16, none) := by decide
theorem test_rotkr_V37 : result (step (machine [] [0x01#8, 0x02#8, 0x03#8] 0x0200#16 [0xC7#8])) =
    some ([], [0x01#8, 0x02#8, 0x03#8, 0x02#8, 0x03#8, 0x01#8], 0x0201#16, none) := by decide
theorem test_equ2_V41 : result (step (machine [0x12#8, 0x34#8, 0x12#8, 0x35#8] [] 0x0200#16 [0x28#8])) =
    some ([0x00#8], [], 0x0201#16, none) := by decide
theorem test_equk_V42 : result (step (machine [0x05#8, 0x05#8] [] 0x0200#16 [0x88#8])) =
    some ([0x05#8, 0x05#8, 0x01#8], [], 0x0201#16, none) := by decide
theorem test_neq2_V44 : result (step (machine [0x00#8, 0x01#8, 0x00#8, 0x01#8] [] 0x0200#16 [0x29#8])) =
    some ([0x00#8], [], 0x0201#16, none) := by decide
theorem test_gth_V47 : result (step (machine [0xFF#8, 0x01#8] [] 0x0200#16 [0x0A#8])) =
    some ([0x01#8], [], 0x0201#16, none) := by decide
theorem test_gth2_V49 : result (step (machine [0x01#8, 0x00#8, 0x00#8, 0xFF#8] [] 0x0200#16 [0x2A#8])) =
    some ([0x01#8], [], 0x0201#16, none) := by decide
theorem test_lth2_V51 : result (step (machine [0x00#8, 0x01#8, 0xFF#8, 0xFF#8] [] 0x0200#16 [0x2B#8])) =
    some ([0x01#8], [], 0x0201#16, none) := by decide
theorem test_lthr_V52 : result (step (machine [] [0x02#8, 0x03#8] 0x0200#16 [0x4B#8])) =
    some ([], [0x01#8], 0x0201#16, none) := by decide
theorem test_jmp_V55 : result (step (machine [0xFF#8] [] 0x0110#16 [0x0C#8])) =
    some ([], [], 0x0110#16, none) := by decide
theorem test_jmp2r_V60 : result (step (machine [] [0x03#8, 0x00#8] 0x0110#16 [0x6C#8])) =
    some ([], [], 0x0300#16, none) := by decide
theorem test_jnz_V64 : result (step (machine [0x00#8, 0xFE#8] [] 0x0120#16 [0x0D#8])) =
    some ([], [], 0x0121#16, none) := by decide
theorem test_jnz2_V65 : result (step (machine [0x07#8, 0x30#8, 0x00#8] [] 0x0120#16 [0x2D#8])) =
    some ([], [], 0x3000#16, none) := by decide
theorem test_jsrr_V70 : result (step (machine [] [0x10#8] 0x0100#16 [0x4E#8])) =
    some ([0x01#8, 0x01#8], [], 0x0111#16, none) := by decide
theorem test_jsr_V73 : result (step (machine [0x05#8] (List.replicate 254 0x00#8) 0x0100#16 [0x0E#8])) =
    some ([], List.replicate 254 0x00#8 ++ [0x01#8], 0x0101#16, some (.overflow, .ret)) := by decide
theorem test_sthk_V77 : result (step (machine [0x0A#8] [] 0x0200#16 [0x8F#8])) =
    some ([0x0A#8], [0x0A#8], 0x0201#16, none) := by decide
theorem test_sth2_V75 : result (step (machine [0x12#8, 0x34#8] [] 0x0200#16 [0x2F#8])) =
    some ([], [0x12#8, 0x34#8], 0x0201#16, none) := by decide
theorem test_ldz2_V81 : result (step (preset (machine [0xFF#8] [] 0x0200#16 [0x30#8]) [(0x00FF#16, 0x01#8), (0x0100#16, 0x02#8)] [])) =
    some ([0x01#8, 0x02#8], [], 0x0201#16, none) := by decide
theorem test_stz2_V84 : result (step (machine [0xAB#8, 0xCD#8, 0xFF#8] [] 0x0200#16 [0x31#8])) =
    some ([], [], 0x0201#16, none) := by decide
theorem test_stz2_V84_memory : bytesAfter (step (machine [0xAB#8, 0xCD#8, 0xFF#8] [] 0x0200#16 [0x31#8])) [0x00FF#16, 0x0100#16] =
    some [0xAB#8, 0xCD#8] := by decide
theorem test_stz_V86 : result (step (machine [0x10#8] [] 0x0200#16 [0x11#8])) =
    some ([], [], 0x0201#16, some (.underflow, .working)) := by decide
theorem test_ldr_V88 : result (step (machine [0xFF#8] [] 0x0200#16 [0x12#8])) =
    some ([0x12#8], [], 0x0201#16, none) := by decide
theorem test_ldr2_V89 : result (step (preset (machine [0x02#8] [] 0x0200#16 [0x32#8]) [(0x0203#16, 0x77#8), (0x0204#16, 0x88#8)] [])) =
    some ([0x77#8, 0x88#8], [], 0x0201#16, none) := by decide
theorem test_str2_V92 : result (step (machine [0x12#8, 0x34#8, 0x05#8] [] 0x0200#16 [0x33#8])) =
    some ([], [], 0x0201#16, none) := by decide
theorem test_str2_V92_memory : bytesAfter (step (machine [0x12#8, 0x34#8, 0x05#8] [] 0x0200#16 [0x33#8])) [0x0206#16, 0x0207#16] =
    some [0x12#8, 0x34#8] := by decide
theorem test_lda2_V95 : result (step (preset (machine [0xFF#8, 0xFF#8] [] 0x0200#16 [0x34#8]) [(0xFFFF#16, 0x01#8), (0x0000#16, 0x02#8)] [])) =
    some ([0x01#8, 0x02#8], [], 0x0201#16, none) := by decide
theorem test_ldak_V100 : result (step (preset (machine [0x12#8, 0x34#8] [] 0x0200#16 [0x94#8]) [(0x1234#16, 0x9A#8)] [])) =
    some ([0x12#8, 0x34#8, 0x9A#8], [], 0x0201#16, none) := by decide
theorem test_sta2_V98 : result (step (machine [0x9A#8, 0xBC#8, 0xFF#8, 0xFF#8] [] 0x0200#16 [0x35#8])) =
    some ([], [], 0x0201#16, none) := by decide
theorem test_sta2_V98_memory : bytesAfter (step (machine [0x9A#8, 0xBC#8, 0xFF#8, 0xFF#8] [] 0x0200#16 [0x35#8])) [0x0000#16, 0xFFFF#16] =
    some [0xBC#8, 0x9A#8] := by decide
theorem test_sta_V99 : result (step (machine [0x12#8, 0x34#8] [] 0x0200#16 [0x15#8])) =
    some ([], [], 0x0201#16, some (.underflow, .working)) := by decide
theorem test_dei2_V103 : result (step (preset (machine [0x7F#8] [] 0x0200#16 [0x36#8]) [] [(0x7#4, 0xF#4, 0xAA#8), (0x7#4, 0x0#4, 0xBB#8)])) =
    some ([0xAA#8, 0xBB#8], [], 0x0201#16, none) := by decide
theorem test_deo_V105 : result (step (preset (machine [0x99#8, 0x71#8] [] 0x0200#16 [0x17#8]) [] [(0x7#4, 0x0#4, 0x12#8)])) =
    some ([], [], 0x0201#16, none) := by decide
theorem test_deo_V105_registers : registersAfter (step (preset (machine [0x99#8, 0x71#8] [] 0x0200#16 [0x17#8]) [] [(0x7#4, 0x0#4, 0x12#8)])) [(0x7#4, 0x1#4)] =
    some [0x99#8] := by decide
theorem test_deo_V105_vector : vectorAfter (step (preset (machine [0x99#8, 0x71#8] [] 0x0200#16 [0x17#8]) [] [(0x7#4, 0x0#4, 0x12#8)])) 0x7#4 = some 0x1299#16 := by decide
theorem test_add2_V113 : result (step (machine [0x12#8, 0xFF#8, 0x00#8, 0x01#8] [] 0x0200#16 [0x38#8])) =
    some ([0x13#8, 0x00#8], [], 0x0201#16, none) := by decide
theorem test_addr_V116 : result (step (machine [] [0x01#8, 0x02#8] 0x0200#16 [0x58#8])) =
    some ([], [0x03#8], 0x0201#16, none) := by decide
theorem test_sub_V119 : result (step (machine [0x03#8, 0x05#8] [] 0x0200#16 [0x19#8])) =
    some ([0xFE#8], [], 0x0201#16, none) := by decide
theorem test_sub2_V120 : result (step (machine [0x00#8, 0x00#8, 0x00#8, 0x01#8] [] 0x0200#16 [0x39#8])) =
    some ([0xFF#8, 0xFF#8], [], 0x0201#16, none) := by decide
theorem test_mul_V123 : result (step (machine [0xFF#8, 0xFF#8] [] 0x0200#16 [0x1A#8])) =
    some ([0x01#8], [], 0x0201#16, none) := by decide
theorem test_mul2_V125 : result (step (machine [0x12#8, 0x34#8, 0x00#8, 0x10#8] [] 0x0200#16 [0x3A#8])) =
    some ([0x23#8, 0x40#8], [], 0x0201#16, none) := by decide
theorem test_div_V128 : result (step (machine [0xFE#8, 0x02#8] [] 0x0200#16 [0x1B#8])) =
    some ([0x7F#8], [], 0x0201#16, none) := by decide
theorem test_divk_V131 : result (step (machine [0x07#8, 0x00#8] [] 0x0200#16 [0x9B#8])) =
    some ([0x07#8, 0x00#8], [], 0x0201#16, some (.divideByZero, .working)) := by decide
theorem test_and_V134 : result (step (machine [0x0C#8, 0x0A#8] [] 0x0200#16 [0x1C#8])) =
    some ([0x08#8], [], 0x0201#16, none) := by decide
theorem test_ora_V135 : result (step (machine [0x0C#8, 0x0A#8] [] 0x0200#16 [0x1D#8])) =
    some ([0x0E#8], [], 0x0201#16, none) := by decide
theorem test_eor2_V137 : result (step (machine [0xFF#8, 0x00#8, 0x0F#8, 0xF0#8] [] 0x0200#16 [0x3E#8])) =
    some ([0xF0#8, 0xF0#8], [], 0x0201#16, none) := by decide
theorem test_sft_V144 : result (step (machine [0xFF#8, 0x44#8] [] 0x0200#16 [0x1F#8])) =
    some ([0xF0#8], [], 0x0201#16, none) := by decide
theorem test_sft2_V147 : result (step (machine [0x01#8, 0x01#8, 0x70#8] [] 0x0200#16 [0x3F#8])) =
    some ([0x80#8, 0x80#8], [], 0x0201#16, none) := by decide

/-- V108 with the body of port 0 returning at once: the halt flag is set by an ordinary DEO. -/
theorem test_deo_V108 : registersAfter (step { machine [0x01#8, 0x0F#8] [] 0x0200#16 [0x17#8] with talkIn := [.returns []] })
    [(0x0#4, 0xF#4)] = some [0x01#8] := by decide

/-! ## The evaluator (L1.11, X1 to X5) -/

theorem test_brk_X2 : (after (step { State.reset with running := true, pc := 0xFFFF#16 })).map (fun t => (t.result, t.running, t.pc)) =
    some (some true, false, 0x0000#16) := by decide
theorem test_evaluate_zero_changes_nothing : step { State.reset with wst := { Stack.reset with ptr := 0xFC#8 }, hostIn := [.evaluate 0x0000#16], loadWindow := false } =
    .next { State.reset with wst := { Stack.reset with ptr := 0xFC#8 }, loadWindow := false, result := some false } := rfl
theorem test_evaluate_halted : (after (step { State.reset.setDev 0x0#4 (Device.reset.put 0xF#4 0x01#8) with hostIn := [.evaluate 0x0100#16] })).map
    (fun t => (t.result, t.running, t.pc)) = some (some false, false, 0x0000#16) := by decide
theorem test_evaluate_clamps_X3 : (after (step { State.reset with wst := { Stack.reset with ptr := 0xFC#8 }, rst := { Stack.reset with ptr := 0xFC#8 }, hostIn := [.evaluate 0x01FD#16] })).map
    (fun t => (t.wst.ptr, t.rst.ptr, t.pc, t.running)) = some (0xF8#8, 0xFC#8, 0x01FD#16, true) := by decide
theorem test_evaluate_clears_faults_X4 : (after (step { State.reset with wst := { Stack.reset with fault := some .divideByZero }, hostIn := [.evaluate 0x0105#16] })).map
    (fun t => (t.wst.fault, t.rst.fault)) = some (none, none) := by decide

/-- X5: with the policy Zero the report still says where the fault was. -/
theorem test_fault_policy_zero_X5 : (after (step { machine [0x07#8, 0x00#8] [] 0x0104#16 [0x1B#8] with pcPolicy := .zero })).map
    (fun t => (t.pc, t.lastFault)) = some (0x0000#16, some ⟨.divideByZero, .working, 0x1B#8, 0x0105#16⟩) := by decide

/-- R290, D8, with the reports of L1.2 to L1.4 in numbers, and a fault of the return stack; 0 is no fault. -/
theorem test_fault_codes :
    (let codes (s : State) := (after (step s)).bind fun t => t.lastFault.map FaultReport.codes
     codes (machine [] [] 0x0100#16 [0x02#8]) = some (1, 0, 0x02, 0x0101) ∧
     codes (machine (List.replicate 255 0x00#8) [] 0x0200#16 [0x80#8, 0x07#8]) = some (2, 0, 0x80, 0x0201) ∧
     codes (machine [0x07#8, 0x00#8] [] 0x0104#16 [0x1B#8]) = some (3, 0, 0x1B, 0x0105) ∧
     codes (machine [] [] 0x0100#16 [0x42#8]) = some (1, 1, 0x42, 0x0101)) ∧
    [none, some .underflow, some .overflow, some .divideByZero].map faultCode = [0, 1, 2, 3] := by decide

/-- R333: a second LOAD is refused by name, and so is a ROM that does not fit. -/
theorem test_second_load_is_refused : step { State.reset with hostIn := [.load [0x00#8]], loadWindow := false } =
    .refused .loadOutsideWindow := rfl
theorem load_refused (rom : List Byte) (h : romFits rom = false) :
    step { State.reset with hostIn := [.load rom] } = .refused .romTooLong := by
  simp [step, idleStep, hostStep, hostLoad, State.reset, h]
theorem test_long_load_is_refused : step { State.reset with hostIn := [.load (List.replicate 65281 0x00#8)] } =
    .refused .romTooLong := load_refused _ test_rom_too_long_is_ill_formed

/-! ## Device bodies (L1.8): the reply listed for port 8 sets register 4 -/

theorem test_dei_reads_after_talk : result (step { machine [0x84#8] [] 0x0200#16 [0x16#8] with talkIn := [.returns [.setReg 0x4#4 0x99#8]] }) =
    some ([0x99#8], [], 0x0201#16, none) := by decide
theorem test_deo_stores_before_talk : registersAfter (step { machine [0x5A#8, 0x84#8] [] 0x0200#16 [0x17#8] with talkIn := [.returns [.setReg 0x4#4 0x77#8]] })
    [(0x8#4, 0x4#4)] = some [0x77#8] := by decide
theorem test_deo2_first_talk_precedes_second_store : registersAfter (step { machine [0x12#8, 0x34#8, 0x84#8] [] 0x0200#16 [0x37#8] with talkIn := [.returns [.setReg 0x5#4 0x00#8], .returns []] })
    [(0x8#4, 0x4#4), (0x8#4, 0x5#4)] = some [0x12#8, 0x34#8] := by decide
theorem test_reentrant_body_is_refused : step { machine [0x84#8] [] 0x0200#16 [0x16#8] with talkIn := [.evaluates 0x0100#16] } =
    .refused .reentrantEvaluate := rfl

/-- R313: a host register write sets no vector (a DEO to register 1 does, V105). -/
theorem test_host_poke_sets_no_vector : vectorAfter (step { State.reset with hostIn := [.pokeDev 0x7#4 0x1#4 0x99#8] }) 0x7#4 =
    some 0x0000#16 := by decide

/-- R7 (d): a host memory write puts its byte. -/
theorem test_host_poke_memory : bytesAfter (step { State.reset with hostIn := [.pokeMem 0xFFFF#16 0x5A#8] }) [0xFFFE#16, 0xFFFF#16, 0x0000#16] =
    some [0x00#8, 0x5A#8, 0x00#8] := by decide

/-! ## The pixel device (L1.6, G3 to G19) -/

/-- A screen of 16 x 8 pixels after `resize` and `frame_reset`. -/
def screen : Ppu := (Ppu.reset.resize 16#16 8#16).frameReset

/-- The words that are not zero, and the dirty range. -/
def drawn (p : Ppu) : PixelWords × Bool × PixelWord × PixelWord := (p.pixels, p.redraw, p.dirtyLo, p.dirtyHi)

theorem test_resize_to_nothing_G2 : Ppu.reset.resize 0#16 5#16 = ⟨0#16, 5#16, 0#32, [], 0xFFFFFFFF#32, 0#32, true⟩ := by decide
theorem test_write_last_pixel_G3 : ((Ppu.reset.resize 10#16 1#16).frameReset.write .bg 9#16 0#16 3#2).pixels = [(1, 0x00000030#32)] := by decide
theorem test_write_G4 : drawn (screen.write .fg 7#16 0#16 3#2) = ([(0, 0xC0000000#32)], true, 0#32, 0#32) := by decide
theorem test_write_outside_G6 : screen.write .fg 16#16 0#16 3#2 = screen ∧ screen.write .fg 0#16 8#16 3#2 = screen := by decide
theorem test_blit1_G10 : drawn (screen.blit1 (Memory.setBytes [] 0x0300#16 [0x80#8]) ⟨.bg, 0#16, 0#16, 0x0300#16, 0x6#4, false, false⟩) =
    ((0, 0x11111112#32) :: [2, 4, 6, 8, 10, 12, 14].map fun i => (i, 0x11111111#32), true, 0#32, 14#32) := by decide
theorem test_blit1_flipped_G13 : (screen.blit1 (Memory.setBytes [] 0x0300#16 [0x80#8]) ⟨.fg, 0#16, 0#16, 0x0300#16, 0x5#4, true, true⟩).pixels =
    [(14, 0x40000000#32)] := by decide
theorem test_blit1_wraps_G14 : (screen.blit1 (Memory.setBytes [] 0x0300#16 [0x80#8]) ⟨.fg, 0xFFFC#16, 0#16, 0x0300#16, 0x5#4, true, false⟩).pixels =
    [(0, 0x00004000#32)] := by decide
theorem test_blit2_G16 : (screen.blit2 (Memory.setBytes [] 0x0400#16 [0xC0#8, 0x00#8, 0x00#8, 0x00#8, 0x00#8, 0x00#8, 0x00#8, 0x00#8, 0xA0#8]) ⟨.fg, 0#16, 0#16, 0x0400#16, 0x1#4, false, false⟩).pixels =
    [(0, 0x0000084C#32)] := by decide
theorem test_blend_checks : [Params.blend 0#2 0x6#4, Params.blend 0#2 0xB#4, Params.blend 0#2 0xE#4, Params.blend 2#2 0x3#4, Params.blend 3#2 0x2#4] =
    [1#2, 2#2, 3#2, 1#2, 1#2] := by decide
theorem test_host_read_G4 : (after (step { State.reset with ppu := screen.write .fg 7#16 0#16 3#2, hostIn := [.ppu (.read 7#16 0#16)] })).map
    (fun t => t.nibble) = some (some 0xC#4) := by decide

/-! ## Witnesses for the hypotheses of the statements

A witness named after a statement shows concrete states that meet its hypotheses, one for each clause, at the boundary of
the clause's range where it has one. -/

/-- Both stacks `n` bytes deep. -/
def deep (n : Nat) : State :=
  { State.reset with wst := { Stack.reset with ptr := BitVec.ofNat 8 n }, rst := { Stack.reset with ptr := BitVec.ofNat 8 n } }

theorem deep_clear (n : Nat) : (deep n).faultsClear := ⟨rfl, rfl⟩

/-- In mode `m` the effect fits where just its bytes are there, and starves where one is missing. -/
def PopsBoundary (e : Mode → State → Effect) (m : Mode) (n : Nat) : Prop :=
  (e m (deep n)).Fits m (deep n) ∧ (e m (deep (n - 1))).Starves m (deep (n - 1))

/-- In mode `m` the effect spills from both stacks `n` deep, and fits from one byte less. -/
def PushBoundary (e : Mode → State → Effect) (m : Mode) (n : Nat) : Prop :=
  (e m (deep n)).Spills m (deep n) ∧ (e m (deep (n - 1))).Fits m (deep (n - 1))

theorem witness_IncAddsOne : ∃ e, Obligations.IncAddsOne = OpcodeObeys .inc 0x01#5 e ∧
    (∀ k r : Bool, PopsBoundary e ⟨k, r, false⟩ 1 ∧ PopsBoundary e ⟨k, r, true⟩ 2) ∧ PushBoundary e ⟨true, false, false⟩ 255 :=
  ⟨_, rfl, by unfold PopsBoundary PushBoundary Effect.Fits Effect.Starves Effect.Spills; decide⟩

theorem witness_PopDropsTheTop : ∃ e, Obligations.PopDropsTheTop = OpcodeObeys .pop 0x02#5 e ∧
    (∀ k r : Bool, PopsBoundary e ⟨k, r, false⟩ 1 ∧ PopsBoundary e ⟨k, r, true⟩ 2) :=
  ⟨_, rfl, by unfold PopsBoundary Effect.Fits Effect.Starves; decide⟩

theorem witness_DupCopiesTheTop : ∃ e, Obligations.DupCopiesTheTop = OpcodeObeys .dup 0x03#5 e ∧
    (∀ k r : Bool, PopsBoundary e ⟨k, r, false⟩ 1 ∧ PopsBoundary e ⟨k, r, true⟩ 2) ∧ PushBoundary e ⟨false, false, false⟩ 255 :=
  ⟨_, rfl, by unfold PopsBoundary PushBoundary Effect.Fits Effect.Starves Effect.Spills; decide⟩

theorem witness_NipDropsTheSecond : ∃ e, Obligations.NipDropsTheSecond = OpcodeObeys .nip 0x04#5 e ∧
    (∀ k r : Bool, PopsBoundary e ⟨k, r, false⟩ 2 ∧ PopsBoundary e ⟨k, r, true⟩ 4) ∧ PushBoundary e ⟨true, false, false⟩ 255 :=
  ⟨_, rfl, by unfold PopsBoundary PushBoundary Effect.Fits Effect.Starves Effect.Spills; decide⟩

theorem witness_SwpSwapsTheTopTwo : ∃ e, Obligations.SwpSwapsTheTopTwo = OpcodeObeys .swp 0x05#5 e ∧
    (∀ k r : Bool, PopsBoundary e ⟨k, r, false⟩ 2 ∧ PopsBoundary e ⟨k, r, true⟩ 4) ∧ PushBoundary e ⟨true, false, false⟩ 254 :=
  ⟨_, rfl, by unfold PopsBoundary PushBoundary Effect.Fits Effect.Starves Effect.Spills; decide⟩

theorem witness_OvrCopiesTheSecond : ∃ e, Obligations.OvrCopiesTheSecond = OpcodeObeys .ovr 0x06#5 e ∧
    (∀ k r : Bool, PopsBoundary e ⟨k, r, false⟩ 2 ∧ PopsBoundary e ⟨k, r, true⟩ 4) ∧ PushBoundary e ⟨false, false, false⟩ 255 :=
  ⟨_, rfl, by unfold PopsBoundary PushBoundary Effect.Fits Effect.Starves Effect.Spills; decide⟩

theorem witness_RotBringsUpTheThird : ∃ e, Obligations.RotBringsUpTheThird = OpcodeObeys .rot 0x07#5 e ∧
    (∀ k r : Bool, PopsBoundary e ⟨k, r, false⟩ 3 ∧ PopsBoundary e ⟨k, r, true⟩ 6) ∧ PushBoundary e ⟨true, false, false⟩ 253 :=
  ⟨_, rfl, by unfold PopsBoundary PushBoundary Effect.Fits Effect.Starves Effect.Spills; decide⟩

theorem witness_JmpGoesToItsTarget : ∃ e, Obligations.JmpGoesToItsTarget = OpcodeObeys .jmp 0x0C#5 e ∧
    (∀ k r : Bool, PopsBoundary e ⟨k, r, false⟩ 1 ∧ PopsBoundary e ⟨k, r, true⟩ 2) :=
  ⟨_, rfl, by unfold PopsBoundary Effect.Fits Effect.Starves; decide⟩

theorem witness_JnzJumpsOnNonZero : ∃ e, Obligations.JnzJumpsOnNonZero = OpcodeObeys .jnz 0x0D#5 e ∧
    (∀ k r : Bool, PopsBoundary e ⟨k, r, false⟩ 2 ∧ PopsBoundary e ⟨k, r, true⟩ 3) :=
  ⟨_, rfl, by unfold PopsBoundary Effect.Fits Effect.Starves; decide⟩

theorem witness_JsrLinksAndJumps : ∃ e, Obligations.JsrLinksAndJumps = OpcodeObeys .jsr 0x0E#5 e ∧
    (∀ k r : Bool, PopsBoundary e ⟨k, r, false⟩ 1 ∧ PopsBoundary e ⟨k, r, true⟩ 2) ∧ PushBoundary e ⟨false, false, false⟩ 254 :=
  ⟨_, rfl, by unfold PopsBoundary PushBoundary Effect.Fits Effect.Starves Effect.Spills; decide⟩

theorem witness_SthMovesToTheOtherStack : ∃ e, Obligations.SthMovesToTheOtherStack = OpcodeObeys .sth 0x0F#5 e ∧
    (∀ k r : Bool, PopsBoundary e ⟨k, r, false⟩ 1 ∧ PopsBoundary e ⟨k, r, true⟩ 2) ∧ PushBoundary e ⟨false, false, false⟩ 255 :=
  ⟨_, rfl, by unfold PopsBoundary PushBoundary Effect.Fits Effect.Starves Effect.Spills; decide⟩

theorem witness_LdzLoadsFromTheZeroPage : ∃ e, Obligations.LdzLoadsFromTheZeroPage = OpcodeObeys .ldz 0x10#5 e ∧
    (∀ k r : Bool, PopsBoundary e ⟨k, r, false⟩ 1 ∧ PopsBoundary e ⟨k, r, true⟩ 1) ∧ PushBoundary e ⟨true, false, false⟩ 255 :=
  ⟨_, rfl, by unfold PopsBoundary PushBoundary Effect.Fits Effect.Starves Effect.Spills; decide⟩

theorem witness_StzStoresToTheZeroPage : ∃ e, Obligations.StzStoresToTheZeroPage = OpcodeObeys .stz 0x11#5 e ∧
    (∀ k r : Bool, PopsBoundary e ⟨k, r, false⟩ 2 ∧ PopsBoundary e ⟨k, r, true⟩ 3) :=
  ⟨_, rfl, by unfold PopsBoundary Effect.Fits Effect.Starves; decide⟩

theorem witness_LdrLoadsRelativeToPc : ∃ e, Obligations.LdrLoadsRelativeToPc = OpcodeObeys .ldr 0x12#5 e ∧
    (∀ k r : Bool, PopsBoundary e ⟨k, r, false⟩ 1 ∧ PopsBoundary e ⟨k, r, true⟩ 1) ∧ PushBoundary e ⟨true, false, false⟩ 255 :=
  ⟨_, rfl, by unfold PopsBoundary PushBoundary Effect.Fits Effect.Starves Effect.Spills; decide⟩

theorem witness_StrStoresRelativeToPc : ∃ e, Obligations.StrStoresRelativeToPc = OpcodeObeys .str 0x13#5 e ∧
    (∀ k r : Bool, PopsBoundary e ⟨k, r, false⟩ 2 ∧ PopsBoundary e ⟨k, r, true⟩ 3) :=
  ⟨_, rfl, by unfold PopsBoundary Effect.Fits Effect.Starves; decide⟩

theorem witness_LdaLoadsFromAnAddress : ∃ e, Obligations.LdaLoadsFromAnAddress = OpcodeObeys .lda 0x14#5 e ∧
    (∀ k r : Bool, PopsBoundary e ⟨k, r, false⟩ 2 ∧ PopsBoundary e ⟨k, r, true⟩ 2) ∧ PushBoundary e ⟨true, false, false⟩ 255 :=
  ⟨_, rfl, by unfold PopsBoundary PushBoundary Effect.Fits Effect.Starves Effect.Spills; decide⟩

theorem witness_StaStoresToAnAddress : ∃ e, Obligations.StaStoresToAnAddress = OpcodeObeys .sta 0x15#5 e ∧
    (∀ k r : Bool, PopsBoundary e ⟨k, r, false⟩ 3 ∧ PopsBoundary e ⟨k, r, true⟩ 4) :=
  ⟨_, rfl, by unfold PopsBoundary Effect.Fits Effect.Starves; decide⟩

theorem witness_AddIsModular : ∃ e, Obligations.AddIsModular = OpcodeObeys .add 0x18#5 e ∧
    (∀ k r : Bool, PopsBoundary e ⟨k, r, false⟩ 2 ∧ PopsBoundary e ⟨k, r, true⟩ 4) ∧ PushBoundary e ⟨true, false, false⟩ 255 :=
  ⟨_, rfl, by unfold PopsBoundary PushBoundary Effect.Fits Effect.Starves Effect.Spills; decide⟩

theorem witness_SubIsModular : ∃ e, Obligations.SubIsModular = OpcodeObeys .sub 0x19#5 e ∧
    (∀ k r : Bool, PopsBoundary e ⟨k, r, false⟩ 2 ∧ PopsBoundary e ⟨k, r, true⟩ 4) ∧ PushBoundary e ⟨true, false, false⟩ 255 :=
  ⟨_, rfl, by unfold PopsBoundary PushBoundary Effect.Fits Effect.Starves Effect.Spills; decide⟩

theorem witness_MulKeepsTheLowHalf : ∃ e, Obligations.MulKeepsTheLowHalf = OpcodeObeys .mul 0x1A#5 e ∧
    (∀ k r : Bool, PopsBoundary e ⟨k, r, false⟩ 2 ∧ PopsBoundary e ⟨k, r, true⟩ 4) ∧ PushBoundary e ⟨true, false, false⟩ 255 :=
  ⟨_, rfl, by unfold PopsBoundary PushBoundary Effect.Fits Effect.Starves Effect.Spills; decide⟩

theorem witness_SftShiftsRightThenLeft : ∃ e, Obligations.SftShiftsRightThenLeft = OpcodeObeys .sft 0x1F#5 e ∧
    (∀ k r : Bool, PopsBoundary e ⟨k, r, false⟩ 2 ∧ PopsBoundary e ⟨k, r, true⟩ 3) ∧ PushBoundary e ⟨true, false, false⟩ 255 :=
  ⟨_, rfl, by unfold PopsBoundary PushBoundary Effect.Fits Effect.Starves Effect.Spills; decide⟩

theorem witness_ComparisonsPushOneByte : ∃ e0 e1 e2 e3, Obligations.ComparisonsPushOneByte = ((OpcodeObeys .equ 0x08#5 e0) ∧
      (OpcodeObeys .neq 0x09#5 e1) ∧
      (OpcodeObeys .gth 0x0A#5 e2) ∧
      (OpcodeObeys .lth 0x0B#5 e3)) ∧
    (∀ k r : Bool, PopsBoundary e0 ⟨k, r, false⟩ 2 ∧ PopsBoundary e0 ⟨k, r, true⟩ 4) ∧ PushBoundary e0 ⟨true, false, false⟩ 255 ∧
    (∀ k r : Bool, PopsBoundary e1 ⟨k, r, false⟩ 2 ∧ PopsBoundary e1 ⟨k, r, true⟩ 4) ∧ PushBoundary e1 ⟨true, false, false⟩ 255 ∧
    (∀ k r : Bool, PopsBoundary e2 ⟨k, r, false⟩ 2 ∧ PopsBoundary e2 ⟨k, r, true⟩ 4) ∧ PushBoundary e2 ⟨true, false, false⟩ 255 ∧
    (∀ k r : Bool, PopsBoundary e3 ⟨k, r, false⟩ 2 ∧ PopsBoundary e3 ⟨k, r, true⟩ 4) ∧ PushBoundary e3 ⟨true, false, false⟩ 255 :=
  ⟨_, _, _, _, rfl, by unfold PopsBoundary PushBoundary Effect.Fits Effect.Starves Effect.Spills; decide⟩

theorem witness_BitwiseOpsWorkBitByBit : ∃ e0 e1 e2, Obligations.BitwiseOpsWorkBitByBit = ((OpcodeObeys .and 0x1C#5 e0) ∧
      (OpcodeObeys .ora 0x1D#5 e1) ∧
      (OpcodeObeys .eor 0x1E#5 e2)) ∧
    (∀ k r : Bool, PopsBoundary e0 ⟨k, r, false⟩ 2 ∧ PopsBoundary e0 ⟨k, r, true⟩ 4) ∧ PushBoundary e0 ⟨true, false, false⟩ 255 ∧
    (∀ k r : Bool, PopsBoundary e1 ⟨k, r, false⟩ 2 ∧ PopsBoundary e1 ⟨k, r, true⟩ 4) ∧ PushBoundary e1 ⟨true, false, false⟩ 255 ∧
    (∀ k r : Bool, PopsBoundary e2 ⟨k, r, false⟩ 2 ∧ PopsBoundary e2 ⟨k, r, true⟩ 4) ∧ PushBoundary e2 ⟨true, false, false⟩ 255 :=
  ⟨_, _, _, rfl, by unfold PopsBoundary PushBoundary Effect.Fits Effect.Starves Effect.Spills; decide⟩

/-- LIT pops nothing, so it never starves; it fits below its room and spills above. -/
theorem witness_LitPushesTheLiteralAndSkipsIt : ∀ m : Mode, m ≠ ⟨false, false, false⟩ →
    let e : State → Effect := fun s =>
      ⟨0, m.src, itemBytes m.width 0x1234#16, fun t => { t with pc := s.pc + BitVec.ofNat 16 m.width.bytes }⟩
    let room := 255 - m.width.bytes
    (e (deep 0)).Fits m (deep 0) ∧ (e (deep room)).Fits m (deep room) ∧ (e (deep (room + 1))).Spills m (deep (room + 1)) := by
  rintro ⟨_ | _, _ | _, _ | _⟩ hm <;>
    first | exact absurd rfl hm | (unfold Effect.Fits Effect.Spills; exact ⟨by decide, by decide, by decide⟩)

theorem witness_LitPushesTheLiteralAndSkipsIt_step : (machine [] [] 0x0200#16 [0x80#8, 0x12#8]).running = true ∧
    (machine [] [] 0x0200#16 [0x80#8, 0x12#8]).mem.byte 0x0200#16 = Mode.opcodeByte ⟨true, false, false⟩ 0x00#5 := by decide

/-- Stacks of ones, `n` bytes deep. -/
def ones (n : Nat) : State := { deep n with wst := stackOf (List.replicate n 0x01#8) }

theorem witness_DivDividesOrFaults :
    (ones 2).faultsClear ∧ (ones 255).faultsClear ∧ (ones 1).faultsClear ∧ (deep 2).faultsClear ∧
    (binaryEffect (fun b a => b / a) ⟨false, false, false⟩ (ones 2)).Fits ⟨false, false, false⟩ (ones 2) ∧
    (ones 2).wst.item .byte 0 ≠ 0#16 ∧
    (binaryEffect (fun b a => b / a) ⟨true, false, false⟩ (ones 255)).Spills ⟨true, false, false⟩ (ones 255) ∧
    (ones 255).wst.item .byte 0 ≠ 0#16 ∧
    (binaryEffect (fun b a => b / a) ⟨false, false, false⟩ (ones 1)).Starves ⟨false, false, false⟩ (ones 1) ∧
    2 ≤ (deep 2).wst.ptr.toNat ∧ (deep 2).wst.item .byte 0 = 0#16 :=
  ⟨⟨rfl, rfl⟩, ⟨rfl, rfl⟩, ⟨rfl, rfl⟩, ⟨rfl, rfl⟩, by unfold Effect.Fits; decide, by decide, by unfold Effect.Spills; decide,
    by decide, by unfold Effect.Starves; decide, by decide, by decide⟩

/-- DEI on a no-op port fits and, in keep mode on a full stack, spills; on a live port with a listed reply the body keeps
its contract; on an empty stack it starves. -/
theorem witness_DeiTalksThenReads :
    let s := machine [0x73#8] [] 0x0201#16 []
    let full := machine (List.replicate 255 0x73#8) [] 0x0201#16 []
    let live := { machine [0x84#8] [] 0x0201#16 [] with talkIn := [.returns [.setReg 0x4#4 0x99#8]] }
    let t (u : State) (k : Bool) (d : Byte) := (u.setStack .working (u.wst.popped k 1)).afterBusRead d .byte
    (s.faultsClear ∧ 1 ≤ s.wst.ptr.toNat ∧ s.bodyObeys 0x73#8 1 ∧ (t s false 0x73#8).wst.ptr.toNat + 1 ≤ 255) ∧
    (full.faultsClear ∧ full.bodyObeys 0x73#8 1 ∧ 255 < (t full true 0x73#8).wst.ptr.toNat + 1) ∧
    (live.faultsClear ∧ live.bodyObeys 0x84#8 1 ∧ (t live false 0x84#8).wst.ptr.toNat + 1 ≤ 255) ∧
    State.reset.faultsClear ∧ State.reset.wst.ptr.toNat < 1 :=
  ⟨⟨⟨rfl, rfl⟩, by decide, .inl rfl, by decide⟩, ⟨⟨rfl, rfl⟩, .inl rfl, by decide⟩,
    ⟨⟨rfl, rfl⟩, .inr rfl, by decide⟩, ⟨rfl, rfl⟩, by decide⟩

theorem witness_DeoStoresThenTalks :
    let s := machine [0x42#8, 0x73#8] [] 0x0201#16 []
    let live := { machine [0x12#8, 0x34#8, 0x84#8] [] 0x0201#16 [] with talkIn := [.returns [], .returns []] }
    (s.faultsClear ∧ 2 ≤ s.wst.ptr.toNat ∧ s.bodyObeys 0x73#8 1) ∧ (live.faultsClear ∧ 3 ≤ live.wst.ptr.toNat ∧ live.bodyObeys 0x84#8 2) ∧
    (deep 1).faultsClear ∧ (deep 1).wst.ptr.toNat < 2 :=
  ⟨⟨⟨rfl, rfl⟩, by decide, .inl rfl⟩, ⟨⟨rfl, rfl⟩, by decide, .inr rfl⟩, ⟨rfl, rfl⟩, by decide⟩

theorem witness_BusReadsAfterAndWritesBeforeTalk : talk 0x7#4 0x3#4 false State.reset = .ok () State.reset := rfl

theorem witness_NoopPortsOnlyHoldRegisters : Params.noopPort 0xC#4 = true ∧ Params.noopPort 0x0#4 = false := by decide

/-- EVALUATE at the first `talk`, and at the second of a short form. -/
theorem witness_EvaluateFromATalkIsRefused :
    let base := machine [0x12#8, 0x34#8, 0x84#8] [] 0x0201#16 []
    let s (r : List TalkReply) := { base with talkIn := r }
    let second := [.returns [.setReg 0x4#4 0x99#8], .evaluates 0x0100#16]
    (∀ r, (s r).wst = base.wst ∧ (s r).talkIn = r) ∧
    Params.noopPort (portOf (base.wst.byteAt 0)) = false ∧ 1 + Width.short.bytes ≤ base.wst.ptr.toNat ∧
    exec .dei2 (s second) = .refused .reentrantEvaluate ∧ exec .deo2 (s second) = .refused .reentrantEvaluate :=
  ⟨fun _ => ⟨rfl, rfl⟩, by decide, by decide, rfl, rfl⟩

/-- A live port with a reply of one action of each kind, listed for it, and one with none listed. -/
theorem witness_TalkChangesOnlyWhatABodyMay :
    let acts : List TalkAction := [.setReg 0x4#4 0x99#8, .memWrite 0x0300#16 0x80#8, .setVector 0x1234#16,
      .ppu (.blit1 ⟨.fg, 0#16, 0#16, 0x0300#16, 0x5#4, false, false⟩), .memWrite 0x0300#16 0x00#8]
    let s := { State.reset with ppu := screen, talkIn := [.returns acts] }
    let t := s.afterTalk 0x8#4 0x4#4 false
    (0x0#4 : Nibble) ≠ 0x8#4 ∧ Params.noopPort 0x8#4 = false ∧ s.talkIn = .returns acts :: [] ∧ State.reset.talkIn = [] ∧
      (t.dev 0x8#4).get 0x4#4 = 0x99#8 ∧ (t.dev 0x8#4).vector = 0x1234#16 ∧ t.mem = [] ∧
      t.ppu.pixels = [(0, 0x00000004#32)] := by decide

theorem witness_BootStateAndRomLoad : (List.replicate 65280 0x00#8).length ≤ 65280 :=
  Nat.le_of_eq List.length_replicate

theorem witness_DecodeAndEncodeAgree : Instr.wellFormed (.lit2kr 0xABCD#16) = true ∧
    decode [0xE0#8, 0xAB#8, 0xCD#8, 0x01#8] = .ok (.lit2kr 0xABCD#16, [0x01#8]) ∧
    [0xE0#8, 0xAB#8, 0xCD#8, 0x01#8] = encode (.lit2kr 0xABCD#16) ++ [0x01#8] := by decide

/-- The bytes of LIT2 lie across the end of memory (V5). -/
theorem witness_StepRunsTheDecodedInstruction :
    let s := machine [] [] 0xFFFE#16 [0x20#8, 0x11#8, 0x22#8]
    s.running = true ∧ (encode (.lit2 0x1122#16)).length = 3 ∧
    ∀ k : Fin 3, s.mem.byte (s.pc + BitVec.ofNat 16 k.val) = (encode (.lit2 0x1122#16))[k.val]'k.isLt := by decide

/-- At the end of memory a short store writes two bytes, and no third. -/
theorem witness_MemoryIsBigEndianAndWraps : storedAt 0xFFFF#16 .short 0x0000#16 ∧ ¬ storedAt 0xFFFF#16 .short 0x0001#16 := by
  unfold storedAt; decide

/-- Each store answers a next state, and some byte lies outside it. -/
theorem witness_StoresChangeOnlyTheirBytes :
    let s := machine [0x9A#8, 0xBC#8, 0x12#8, 0x34#8] [] 0x0201#16 []
    (after (exec .stz2 s)).isSome ∧ (after (exec .str2 s)).isSome ∧ (after (exec .sta2 s)).isSome ∧
    ¬ storedAt (zeroPage (zext8 (s.wst.byteAt 0))) .short 0x0036#16 := by
  unfold storedAt; decide

theorem witness_NonStoringInstructionsLeaveMemoryAndDevices :
    (∀ m : Mode, Instr.inc ≠ stzForm m ∧ Instr.inc ≠ strForm m ∧ Instr.inc ≠ staForm m ∧ Instr.inc ≠ deiForm m ∧
      Instr.inc ≠ deoForm m) ∧ (after (exec .inc (ones 1))).isSome ∧ (after (exec .inc (deep 0))).isSome := by
  refine ⟨?_, by decide, by decide⟩
  rintro ⟨_ | _, _ | _, _ | _⟩ <;> decide

theorem witness_BrkEndsTheEvaluation :
    (machine [] [] 0x0200#16 [0x00#8]).running = true ∧ (machine [] [] 0x0200#16 [0x00#8]).mem.byte 0x0200#16 = 0x00#8 := by decide

/-- Vector 0; the halt flag; and an accepted vector with the pointer at, and past, the clamp. -/
theorem witness_EvaluateIsRefusedOrEntered :
    let zero := { State.reset with hostIn := [.evaluate 0x0000#16] }
    let halt := { State.reset.setDev 0x0#4 (Device.reset.put 0xF#4 0x01#8) with hostIn := [.evaluate 0x0100#16] }
    let go (p : Byte) := { State.reset with hostIn := [.evaluate 0x0100#16], wst := { Stack.reset with ptr := p } }
    (zero.running = false ∧ zero.hostIn = .evaluate 0x0000#16 :: []) ∧
    (halt.running = false ∧ halt.hostIn = .evaluate 0x0100#16 :: [] ∧ (halt.dev 0x0#4).get 0xF#4 ≠ 0x00#8) ∧
    (∀ p : Byte, (go p).running = false ∧ (go p).hostIn = .evaluate 0x0100#16 :: [] ∧ ((go p).dev 0x0#4).get 0xF#4 = 0x00#8) ∧
    (go 0xF8#8).wst.ptr = 0xF8#8 ∧ (go 0xF9#8).wst.ptr = 0xF9#8 :=
  ⟨⟨rfl, rfl⟩, by decide, fun _ => ⟨rfl, rfl, rfl⟩, rfl, rfl⟩

/-- A step after which the evaluation goes on, one that ends at BRK, and one that ends by a fault. -/
theorem witness_EvaluationsEndOnlyAtBrkOrFault :
    (machine [] [] 0x0200#16 [0x00#8]).faultsClear ∧ (machine [] [] 0x0200#16 [0x02#8]).faultsClear ∧
    (after (step (machine [0x01#8] [] 0x0200#16 [0x02#8]))).map (fun t => t.running) = some true ∧
    (after (step (machine [] [] 0x0200#16 [0x00#8]))).map (fun t => t.running) = some false ∧
    (after (step (machine [] [] 0x0200#16 [0x02#8]))).map (fun t => t.running) = some false :=
  ⟨⟨rfl, rfl⟩, ⟨rfl, rfl⟩, by decide, by decide, by decide⟩

theorem witness_HalfDoneStackAccesses :
    (deep 254).wst.ptr = 254#8 ∧ (deep 255).wst.ptr = 255#8 ∧ (deep 1).wst.ptr = 1#8 ∧
    { Stack.reset with kptr := 1#8 }.kptr = 1#8 ∧ (Mode.ctx ⟨false, false, true⟩).keep = false ∧ (Mode.ctx ⟨true, false, true⟩).keep = true ∧
    (Mode.ctx ⟨true, false, true⟩).src = .working := by decide

theorem witness_DestinationStackChangesOnlyInJsrAndSth :
    Opcode.inc ≠ .jsr ∧ Opcode.inc ≠ .sth ∧ (after (exec (Opcode.form .inc ⟨false, true, false⟩) (deep 1))).isSome ∧
    (after (exec (litInstr ⟨true, true, false⟩ 0x0012#16) (deep 1))).isSome ∧ (after (exec .brk (deep 1))).isSome := by decide

theorem witness_RunningStepsLeaveTheHostAlone :
    let s := { machine [0x01#8] [] 0x0200#16 [0x01#8] with hostIn := [.pokeMem 0x0000#16 0x01#8] }
    s.running = true ∧ (after (step s)).isSome := by decide

/-- Each of the three refusals is met. -/
theorem witness_StepsStopOnlyOutsideTheContract :
    step { machine [0x84#8] [] 0x0200#16 [0x16#8] with talkIn := [.evaluates 0x0100#16] } = .refused .reentrantEvaluate ∧
    step { State.reset with hostIn := [.load [0x00#8]], loadWindow := false } = .refused .loadOutsideWindow ∧
    step { State.reset with hostIn := [.load (List.replicate 65281 0x00#8)] } = .refused .romTooLong :=
  ⟨test_reentrant_body_is_refused, test_second_load_is_refused, test_long_load_is_refused⟩

/-- Every transaction stands first in an idle state; for the reads, the last pixel, and one column and one row past it. -/
theorem witness_HostPokesAndPixelReads :
    let s (c : HostCmd) := { State.reset with hostIn := [c] }
    (∀ c, (s c).running = false ∧ (s c).hostIn = c :: []) ∧
    511 < State.reset.ppu.width.toNat ∧ 319 < State.reset.ppu.height.toNat ∧
    State.reset.ppu.width.toNat ≤ 512 ∧ State.reset.ppu.height.toNat ≤ 320 :=
  ⟨fun _ => ⟨rfl, rfl⟩, by decide, by decide, by decide, by decide⟩

/-! The pixel device in form: every word of the fresh screen is zero. -/

theorem screen_wf : screen.wf := by
  refine ⟨by decide, rfl, fun i k _ _ => ?_⟩
  have : screen.word i = 0#32 := rfl
  rw [this]
  exact BitVec.eq_of_toNat_eq (by simp)

theorem screen_dirtyOk : screen.dirtyOk := ⟨fun _ => ⟨rfl, rfl⟩, fun h => absurd h (by decide)⟩

/-- The last pixel of the screen, and the first column and row past it. -/
theorem witness_PixelWritesAreReadBack : screen.wf ∧ screen.inBounds 15#16 7#16 = true ∧ screen.inBounds 16#16 7#16 = false ∧
    screen.inBounds 15#16 8#16 = false ∧ Layer.bg ≠ .fg ∧ screen.inBounds 14#16 7#16 = true := ⟨screen_wf, by decide⟩

theorem witness_PixelWritesDirtyOnlyWhatChanges : screen.wf ∧ screen.inBounds 15#16 7#16 = true ∧
    screen.layerAt .fg 15#16 7#16 = 0#2 ∧ screen.layerAt .fg 15#16 7#16 ≠ 3#2 := ⟨screen_wf, by decide⟩

theorem witness_ResizeAndFrameReset : 0 < ((1 + 7) / 8) * 1 ∧ ((0 + 7) / 8) * 5 = 0 := by decide

/-- A source pixel that lands on a pixel, and a pixel that none lands on. -/
theorem witness_BlitsPaintTheirSprite : screen.wf ∧ screen.inBounds 7#16 7#16 = true ∧
    spriteLands ⟨.fg, 0#16, 0#16, 0x0300#16, 0x1#4, true, false⟩ 7 0 7#16 7#16 ∧ screen.inBounds 8#16 0#16 = true ∧
    ∀ v h : Fin 8, ¬ spriteLands ⟨.fg, 0#16, 0#16, 0x0300#16, 0x1#4, true, false⟩ v.val h.val 8#16 0#16 :=
  ⟨screen_wf, by decide, by unfold spriteLands; decide, by decide, by unfold spriteLands; decide⟩

theorem witness_DirtyRangeCoversEveryChange : screen.wf ∧
    (∀ c ∈ [PpuCmd.write .fg 15#16 7#16 3#2], c ≠ .frameReset ∧ ∀ w h, c ≠ .resize w h) ∧
    (screen.frameReset.run [] (.write .fg 15#16 7#16 3#2)).word 15 ≠ screen.word 15 := by
  refine ⟨screen_wf, ?_, by decide⟩
  intro c hc
  cases List.mem_singleton.1 hc
  exact ⟨by decide, fun _ _ => by simp⟩

theorem witness_PixelWritesCommute : screen.wf ∧ (0#16 ≠ 1#16 ∨ (0#16 : Short) ≠ 0#16) := ⟨screen_wf, by decide⟩

/-- A state whose pixel device is the screen, in which the host draws. -/
def drawing : State := { State.reset with ppu := screen, hostIn := [.ppu (.write .fg 15#16 7#16 3#2)] }

theorem witness_StepKeepsMemoryCanonical :
    let s := machine [0x9A#8, 0x12#8, 0x34#8] [] 0x0200#16 [0x15#8]
    s.mem.wf = true ∧ (after (step s)).isSome ∧ bytesAfter (step s) [0x1234#16] = some [0x9A#8] := by decide

theorem witness_StepKeepsThePixelDeviceInForm : drawing.ppu.wf ∧ drawing.ppu.dirtyOk ∧
    (after (step drawing)).map (fun t => t.ppu.pixels) = some [(15, 0xC0000000#32)] := ⟨screen_wf, screen_dirtyOk, by decide⟩

/-- A running state, and one that a fault ended. -/
theorem witness_StepKeepsFaultsAndAnswersApart :
    (machine [] [] 0x0200#16 [0x02#8]).faultsOk ∧ (after (step (machine [] [] 0x0200#16 [0x02#8]))).isSome ∧
    { State.reset with wst := { Stack.reset with fault := some .underflow }, result := some false }.faultsOk :=
  ⟨⟨.inl rfl, fun _ => ⟨⟨rfl, rfl⟩, rfl⟩⟩, by decide, ⟨.inr rfl, fun h => by cases h⟩⟩

theorem witness_StepKeepsTheTopBytesUnused :
    let s := { deep 254 with running := true, mem := Memory.setBytes [] 0x0000#16 [0x03#8] }
    s.topBytesUnused ∧ (after (step s)).map (fun t => t.wst.ptr) = some 255#8 :=
  ⟨by unfold State.topBytesUnused; decide, by decide⟩

/-- The last free slot and none; the lowest byte and none, by either pointer; and instructions of each shape that answer. -/
theorem witness_BytePushesAndPops :
    (deep 255).wst.ptr = 255#8 ∧ (deep 254).wst.ptr ≠ 255#8 ∧ (deep 0).wst.ptr = 0#8 ∧ (deep 1).wst.kptr = 0#8 ∧
    (deep 1).wst.ptr.toNat = (0 : Fin 256).val + 1 ∧ (deep 255).wst.ptr.toNat = (254 : Fin 256).val + 1 ∧
    { Stack.reset with kptr := 1#8 }.kptr.toNat = (0 : Fin 256).val + 1 ∧
    (after (exec .brk (deep 1))).isSome ∧ (after (exec (litInstr ⟨true, true, false⟩ 0x0012#16) (deep 1))).isSome ∧
    (after (exec (Opcode.form .jsr ⟨false, false, false⟩) (deep 1))).isSome := by decide

end Sys2Proof.Tests
end

section
/-! The byte stack primitives (spec/20_memory.md R78, R79): one rule per outcome of a byte push and a byte pop, and the
frame of an instruction on the stack that is not its source. -/

namespace Sys2Proof.Machine

/-! ## A byte push -/

theorem push8_of_full {s : State} {i : StackId} (b : Byte) (h : (s.stack i).ptr = Params.stackDepth) :
    push8 i b s = .error .fault (s.setStack i ((s.stack i).withFault .overflow)) := by
  simp [push8, h, raise, Stack.withFault]

theorem push8_of_room {s : State} {i : StackId} (b : Byte) (h : (s.stack i).ptr ≠ Params.stackDepth) :
    push8 i b s = .ok () (s.setStack i ((s.stack i).push8 b)) := by
  simp [push8, h]

theorem push8_ptr_toNat {S : Stack} (b : Byte) (h : S.ptr ≠ Params.stackDepth) :
    (S.push8 b).ptr.toNat = S.ptr.toNat + 1 := by
  have hne : S.ptr.toNat ≠ 255 := fun e => h (BitVec.eq_of_toNat_eq e)
  rw [push8_ptr]
  bv_omega

theorem push8_dat (S : Stack) (b : Byte) (k : Fin 256) :
    (S.push8 b).dat[k] = if k.val = S.ptr.toNat then b else S.dat[k] := by
  simp only [Stack.push8, Fin.getElem_fin, Vector.getElem_set, eq_comm]

/-! ## A byte pop -/

theorem pop8_of_empty {s : State} {c : Ctx}
    (h : (if c.keep then (s.stack c.src).kptr else (s.stack c.src).ptr) = 0#8) :
    pop8 c s = .error .fault (s.setStack c.src ((s.stack c.src).withFault .underflow)) := by
  unfold pop8
  cases hk : c.keep <;> simp_all [raise, Stack.withFault]

/-- A pointer one above `k` is not at the bottom, and moved down it is `k`. -/
theorem pointer_pred {p : Byte} {k : Fin 256} (h : p.toNat = k.val + 1) : p ≠ 0#8 ∧ p - 1#8 = BitVec.ofNat 8 k.val := by
  have := k.isLt
  constructor <;> bv_omega

theorem pop8_of_keep {s : State} {c : Ctx} {k : Fin 256} (hk : c.keep = true)
    (h : (s.stack c.src).kptr.toNat = k.val + 1) :
    pop8 c s = .ok (s.stack c.src).dat[k] (s.setStack c.src { s.stack c.src with kptr := BitVec.ofNat 8 k.val }) := by
  obtain ⟨hne, hpred⟩ := pointer_pred h
  simp [pop8, hk, hne, hpred]

theorem pop8_of_not_keep {s : State} {c : Ctx} {k : Fin 256} (hk : c.keep = false)
    (h : (s.stack c.src).ptr.toNat = k.val + 1) :
    pop8 c s = .ok (s.stack c.src).dat[k] (s.setStack c.src { s.stack c.src with ptr := BitVec.ofNat 8 k.val }) := by
  obtain ⟨hne, hpred⟩ := pointer_pred h
  simp [pop8, hk, hne, hpred]

/-! ## The stack that is not the source -/

@[simp] theorem act_stack (p : Nibble) (s : State) (x : TalkAction) (i : StackId) : (s.act p x).stack i = s.stack i := by
  cases i
  · exact act_wst p s x
  · exact act_rst p s x

/-- A device body reaches no stack (R310). -/
@[simp] theorem afterTalk_stack (p l : Nibble) (b : Bool) (s : State) (i : StackId) :
    (s.afterTalk p l b).stack i = s.stack i :=
  afterTalk_induction (P := fun t => t.stack i = s.stack i) l b rfl (fun _ _ => by cases i <;> rfl)
    fun t x h => (act_stack p t x i).trans h

/-- Stack `i` lost nothing from `s` to `t`: its pointer is no lower and its kept pointer the same. -/
def NotPopped (i : StackId) (s t : State) : Prop :=
  (s.stack i).ptr ≤ (t.stack i).ptr ∧ (t.stack i).kptr = (s.stack i).kptr

variable {i : StackId} {s t : State}

theorem notPopped_of_stack_eq (h : t.stack i = s.stack i) : NotPopped i s t := by
  rw [NotPopped, h]
  exact ⟨BitVec.le_refl _, rfl⟩

theorem notPopped_composes (i : StackId) : Composes (NotPopped i) fun s _ t => NotPopped i s t := by
  have trans : ∀ {s t u}, NotPopped i s t → NotPopped i t u → NotPopped i s u := fun ⟨hp, hk⟩ ⟨hp', hk'⟩ =>
    ⟨BitVec.le_trans hp hp', hk'.trans hk⟩
  exact ⟨fun _ => notPopped_of_stack_eq rfl, fun _ _ _ => trans, fun _ _ _ _ => trans⟩

/-- A push on a stack pops nothing from it, whether it fits or not. -/
theorem notPopped_allowsPush (i : StackId) : AllowsPush (NotPopped i) (fun s _ t => NotPopped i s t) i where
  put s b h := by
    have hptr := push8_ptr_toNat b h
    simp only [NotPopped, stack_setStack_same, push8_kptr, and_true, BitVec.le_def]
    omega
  raises s k := by
    simp only [NotPopped, stack_setStack_same]
    exact ⟨BitVec.le_refl _, rfl⟩

/-- Whatever is done with the source stack pops nothing from the destination stack. -/
theorem notPopped_dst_allowsStack_src (m : Mode) :
    AllowsStack (NotPopped m.dst) (fun s _ t => NotPopped m.dst s t) m.src where
  put s _ _ := notPopped_of_stack_eq (stack_setStack_other s _ (dst_ne_src m))
  raises s _ := notPopped_of_stack_eq (stack_setStack_other s _ (dst_ne_src m))
  move s _ _ _ := notPopped_of_stack_eq (stack_setStack_other s _ (dst_ne_src m))

theorem notPopped_allowsBus (i : StackId) : AllowsBus (NotPopped i) fun s _ t => NotPopped i s t where
  store s p _ _ := notPopped_of_stack_eq (setDev_stack s p _ i)
  talks s p l b := notPopped_of_stack_eq (afterTalk_stack p l b s i)
  refuses _ _ _ := notPopped_of_stack_eq rfl

theorem notPopped_setPc (i : StackId) (s : State) (a : Short) : NotPopped i s { s with pc := a } :=
  notPopped_of_stack_eq (by cases i <;> rfl)

theorem notPopped_memWrite (i : StackId) (s : State) (a v : Short) (w : Width) :
    NotPopped i s { s with mem := s.mem.write a v w } :=
  notPopped_of_stack_eq (by cases i <;> rfl)

/-- An instruction whose body pops nothing from the destination stack pops nothing from it: the load of the kept pointer
is on the source stack (R148), and taking a fault changes no stack (R296). -/
theorem runOp_notPopped_dst {m : Mode} {op : BitVec 5} {body : Ctx → MicroOp Unit}
    (hr : Runs (NotPopped m.dst) (fun s _ t => NotPopped m.dst s t) (body m.ctx)) (h : runOp m op body s = .next t) :
    NotPopped m.dst s t :=
  runOp_keeps (notPopped_composes _) (notPopped_dst_allowsStack_src m) hr
    (fun s _ _ _ => notPopped_of_stack_eq (takeFault_stack _ _ _ _ s)) h

theorem exec_brk_notPopped (h : exec .brk s = .next t) : NotPopped i s t := by
  cases h
  exact notPopped_of_stack_eq (by cases i <;> rfl)

theorem exec_litInstr_notPopped_dst {m : Mode} {v : Short} (h : exec (litInstr m v) s = .next t) :
    NotPopped m.dst s t := by
  by_cases hm : m = ⟨false, false, false⟩
  · subst hm
    exact exec_brk_notPopped h
  · rw [exec_litInstr m v s hm] at h
    exact runOp_notPopped_dst (runs_litBody (notPopped_composes _) m (notPopped_dst_allowsStack_src m)
      (notPopped_setPc _) _) h

theorem exec_form_notPopped_dst {o : Opcode} {m : Mode} (h : exec (o.form m) s = .next t) : NotPopped m.dst s t := by
  rw [exec_form] at h
  exact runOp_notPopped_dst (runs_bodyOf o m (notPopped_composes _) (notPopped_dst_allowsStack_src m)
    (fun _ => notPopped_setPc _) (fun _ => notPopped_allowsPush _) (fun _ => notPopped_memWrite _)
    fun _ => notPopped_allowsBus _) h

/-- Settles O60: the rules of a byte push and a byte pop, and, for the pops from the source stack only, the frame that
every micro-op of an instruction keeps on the other stack. -/
theorem bytePushesAndPops : Obligations.BytePushesAndPops := by
  refine ⟨fun s i b => ⟨fun hfull next => ?_, fun hroom => ?_⟩, fun s c => ⟨?_, ?_, ?_⟩, fun m i s t hi h => ?_⟩
  · exact bind_error (push8_of_full b hfull)
  · exact ⟨_, push8_of_room b hroom, push8_ptr_toNat b hroom, push8_dat _ b, push8_kptr _ b, push8_fault _ b⟩
  · exact pop8_of_empty
  · exact fun hk _ => pop8_of_keep hk
  · exact fun hk _ => pop8_of_not_keep hk
  · rcases hi with rfl | ⟨v, rfl⟩ | ⟨o, rfl⟩
    · exact exec_brk_notPopped h
    · exact exec_litInstr_notPopped_dst h
    · exact exec_form_notPopped_dst h

end Sys2Proof.Machine
end

section
/-! The end of an evaluation (spec/40_evaluator.md R146): a fetched BRK byte, whatever bytes follow it. -/

namespace Sys2Proof.Machine

/-- A 0x00 byte at pc is BRK, by the round trip of its encoding (R115). -/
theorem decode_fetchBytes_of_zero {s : State} (h : s.mem.byte s.pc = 0x00#8) :
    decode (fetchBytes s) = .ok (.brk, [s.mem.byte (s.pc + 1), s.mem.byte (s.pc + 2)]) := by
  unfold fetchBytes
  rw [h]
  exact Laws.RoundTrip.brk _

/-- A running step executes the instruction its fetch decodes, from the state past the opcode byte (R145). -/
theorem step_of_decode {s : State} {i : Instr} {rest : List Byte} (hr : s.running = true)
    (hd : decode (fetchBytes s) = .ok (i, rest)) : step s = exec i { s with pc := s.pc + 1#16 } := by
  obtain ⟨i', rest', hd', hstep⟩ := step_running hr
  cases hd.symm.trans hd'
  exact hstep

theorem exec_brk (s : State) : exec .brk s = .next (endEvaluation s) := rfl

/-- Settles O41: BRK's meaning, and for the running step the decoded BRK executed past its byte. -/
theorem brkEndsTheEvaluation : Obligations.BrkEndsTheEvaluation := by
  refine ⟨exec_brk, fun s hr h0 => ?_⟩
  rw [step_of_decode hr (decode_fetchBytes_of_zero h0), exec_brk, endEvaluation]

end Sys2Proof.Machine
end

section
/-! Memory's canonical form and the unused top bytes, through every change a step is made of. -/

namespace Sys2Proof.Machine

/-- Memory stays in canonical form under every change a step makes: only the stores touch it. -/
theorem memWf_keptByChanges : KeptByChanges fun s => s.mem.wf = true where
  pc _ _ h := h
  stack s i S h _ := by rwa [setStack_mem]
  dev _ _ _ h := h
  store _ a l h := Memory.wf_setBytes l h a
  draw _ _ h := h
  replies _ _ _ h := h
  pending _ _ h := h
  window _ _ h := h
  answer _ _ h := h
  readOut _ _ _ h := h
  enter _ _ h := h
  leave _ h := h
  report _ _ _ _ h := h

/-- Settles O56: every step is made of changes that keep the canonical form. -/
theorem stepKeepsMemoryCanonical : Obligations.StepKeepsMemoryCanonical :=
  fun _ _ hs => memWf_keptByChanges.step hs

/-- The top bytes stay unused: a stack is only replaced by one with the same top byte. -/
theorem topBytesUnused_keptByChanges : KeptByChanges State.topBytesUnused where
  pc _ _ h := h
  stack s i S h hS := by
    obtain ⟨hw, hr⟩ := h
    cases i
    · exact ⟨hS.trans hw, hr⟩
    · exact ⟨hw, hS.trans hr⟩
  dev _ _ _ h := h
  store _ _ _ h := h
  draw _ _ h := h
  replies _ _ _ h := h
  pending _ _ h := h
  window _ _ h := h
  answer _ _ h := h
  readOut _ _ _ h := h
  enter _ _ h := h
  leave _ h := h
  report _ _ _ _ h := h

/-- Settles O59: no change a step is made of touches `dat[255]` of a stack. -/
theorem stepKeepsTheTopBytesUnused : Obligations.StepKeepsTheTopBytesUnused :=
  fun _ _ hs => topBytesUnused_keptByChanges.step hs

end Sys2Proof.Machine
end

section
/-! Decoding and encoding agree (spec/30_encoding.md): an opcode byte is its mode and its index, the encoding of each
family of forms in those parts, and what a decoded instruction was read from. -/

namespace Sys2Proof.Machine

/-! ## The parts of an opcode byte -/

theorem opcodeByte_modeOf_indexOf (b : Byte) : (modeOf b).opcodeByte (indexOf b) = b := by
  revert b
  decide

/-- The opcode index is the low five bits of the opcode byte (R110). -/
theorem opcodeByte_mod (m : Mode) (op : BitVec 5) : (m.opcodeByte op).toNat % 32 = op.toNat := by
  obtain ⟨_ | _, _ | _, _ | _⟩ := m <;> revert op <;> decide

/-- Only BRK has the opcode byte 0x00 (R115). -/
theorem opcodeByte_eq_zero_iff (m : Mode) (op : BitVec 5) :
    m.opcodeByte op = 0x00#8 ↔ m = ⟨false, false, false⟩ ∧ op = 0#5 := by
  obtain ⟨_ | _, _ | _, _ | _⟩ := m <;> revert op <;> decide

theorem index_of_ofIndex {op : BitVec 5} {o : Opcode} : Opcode.ofIndex op = some o → o.index = op := by
  revert op o
  decide

theorem index_zero_of_ofIndex {op : BitVec 5} : Opcode.ofIndex op = none → op = 0#5 := by
  revert op
  decide

theorem index_ne_zero (o : Opcode) : o.index ≠ 0#5 := by
  cases o <;> decide

theorem opcodeByte_index_ne_zero (o : Opcode) (m : Mode) : m.opcodeByte o.index ≠ 0x00#8 := by
  rw [Ne, opcodeByte_eq_zero_iff]
  exact fun h => index_ne_zero o h.2

/-- An opcode byte is BRK's, a LIT form's, or a form's of one of the 31 other opcodes. -/
theorem opcodeByte_cases (b : Byte) :
    b = 0x00#8 ∨ (∃ m : Mode, m ≠ ⟨false, false, false⟩ ∧ b = m.opcodeByte 0#5) ∨
      ∃ (o : Opcode) (m : Mode), b = m.opcodeByte o.index := by
  have hb := opcodeByte_modeOf_indexOf b
  cases hop : Opcode.ofIndex (indexOf b) with
  | some o => exact .inr (.inr ⟨o, modeOf b, by rw [index_of_ofIndex hop, hb]⟩)
  | none =>
    rw [index_zero_of_ofIndex hop] at hb
    by_cases hm : modeOf b = ⟨false, false, false⟩
    · exact .inl (by rw [← hb, hm]; rfl)
    · exact .inr (.inl ⟨modeOf b, hm, hb.symm⟩)

/-! ## Encoding by families -/

theorem encode_form (o : Opcode) (m : Mode) : encode (o.form m) = [m.opcodeByte o.index] := by
  obtain ⟨_ | _, _ | _, _ | _⟩ := m <;> cases o <;> rfl

theorem encode_litInstr {m : Mode} (hm : m ≠ ⟨false, false, false⟩) (v : Short) :
    encode (litInstr m v) = m.opcodeByte 0#5 :: itemBytes m.width v := by
  obtain ⟨_ | _, _ | _, _ | _⟩ := m <;> first | exact absurd rfl hm | rfl

theorem itemBytes_length (w : Width) (v : Short) : (itemBytes w v).length = w.bytes := by
  cases w <;> rfl

/-! ## Decoding what was encoded -/

theorem decodeLit_itemBytes {m : Mode} (hm : m ≠ ⟨false, false, false⟩) (v : Short) (rest : List Byte) :
    decodeLit m (itemBytes m.width v ++ rest) = .ok (litInstr m v, rest) := by
  have hjoin := join_hi_lo v
  obtain ⟨_ | _, _ | _, _ | _⟩ := m <;>
    simp_all [decodeLit, litInstr, Mode.width, itemBytes]

theorem decode_opcodeByte_zero {m : Mode} (hm : m ≠ ⟨false, false, false⟩) (l : List Byte) :
    decode (m.opcodeByte 0#5 :: l) = decodeLit m l := by
  obtain ⟨_ | _, _ | _, _ | _⟩ := m <;> first | exact absurd rfl hm | rfl

theorem decode_encode (i : Instr) (rest : List Byte) : decode (encode i ++ rest) = .ok (i, rest) := by
  rcases instr_cases i with rfl | ⟨m, v, hm, rfl⟩ | ⟨o, m, rfl⟩
  · exact Laws.RoundTrip.brk rest
  · rw [encode_litInstr hm, List.cons_append, decode_opcodeByte_zero hm, decodeLit_itemBytes hm]
  · rw [encode_form]
    exact encodedAt o m rest

/-! ## What a decoded instruction was read from -/

/-- A LIT form is read from the bytes of its literal. -/
theorem decodeLit_eq_ok {m : Mode} (hm : m ≠ ⟨false, false, false⟩) {l rest : List Byte} {i : Instr}
    (h : decodeLit m l = .ok (i, rest)) : ∃ v, i = litInstr m v ∧ l = itemBytes m.width v ++ rest := by
  unfold decodeLit at h
  split at h <;> cases h
  case h_1 => exact absurd rfl hm
  case h_3 v | h_5 v | h_7 v => exact ⟨zext8 v, by simp [litInstr], by simp [Mode.width, itemBytes]⟩
  all_goals
    next hi lo => exact ⟨join hi lo, rfl, by simp [Mode.width, itemBytes]⟩

theorem encode_of_decode {bytes rest : List Byte} {i : Instr} (h : decode bytes = .ok (i, rest)) :
    bytes = encode i ++ rest := by
  cases bytes with
  | nil => cases h
  | cons b l =>
    rcases opcodeByte_cases b with rfl | ⟨m, hm, rfl⟩ | ⟨o, m, rfl⟩
    · cases h
      rfl
    · rw [decode_opcodeByte_zero hm] at h
      obtain ⟨v, rfl, rfl⟩ := decodeLit_eq_ok hm h
      rw [encode_litInstr hm, List.cons_append]
    · rw [encodedAt] at h
      cases h
      rw [encode_form, List.singleton_append]

/-- Settles O5: the round trip family by family, and the inversion of the decoder. -/
theorem decodeAndEncodeAgree : Obligations.DecodeAndEncodeAgree :=
  fun _ i rest _ => ⟨encode_of_decode, fun h => h ▸ decode_encode i rest⟩

/-! ## Every byte begins an instruction -/

theorem decodeLit_of_two (m : Mode) (x y : Byte) (rest : List Byte) :
    ∃ i r, decodeLit m (x :: y :: rest) = .ok (i, r) := by
  obtain ⟨_ | _, _ | _, _ | _⟩ := m <;> exact ⟨_, _, rfl⟩

/-- Three bytes always hold an instruction (R118). -/
theorem decode_of_three (b x y : Byte) (rest : List Byte) : ∃ i r, decode (b :: x :: y :: rest) = .ok (i, r) := by
  rcases opcodeByte_cases b with rfl | ⟨m, hm, rfl⟩ | ⟨o, m, rfl⟩
  · exact ⟨_, _, rfl⟩
  · rw [decode_opcodeByte_zero hm]
    exact decodeLit_of_two m x y rest
  · exact ⟨_, _, encodedAt o m _⟩

theorem lengthOf_opcodeByte_index (o : Opcode) (m : Mode) : lengthOf (m.opcodeByte o.index) = 1 := by
  obtain ⟨_ | _, _ | _, _ | _⟩ := m <;> cases o <;> rfl

theorem lengthOf_opcodeByte_zero {m : Mode} (hm : m ≠ ⟨false, false, false⟩) :
    lengthOf (m.opcodeByte 0#5) = m.width.bytes + 1 := by
  obtain ⟨_ | _, _ | _, _ | _⟩ := m <;> first | exact absurd rfl hm | rfl

/-- The length of an encoding follows from its first byte (R121). -/
theorem encode_eq_cons (i : Instr) : ∃ b l, encode i = b :: l ∧ l.length + 1 = lengthOf b := by
  rcases instr_cases i with rfl | ⟨m, v, hm, rfl⟩ | ⟨o, m, rfl⟩
  · exact ⟨_, _, rfl, rfl⟩
  · exact ⟨_, _, encode_litInstr hm v, by rw [itemBytes_length, lengthOf_opcodeByte_zero hm]⟩
  · exact ⟨_, _, encode_form o m, (lengthOf_opcodeByte_index o m).symm⟩

theorem lengthOf_eq (b : Byte) :
    lengthOf b = if b = 0x00#8 ∨ b.toNat % 32 ≠ 0 then 1 else if b.toNat / 32 % 2 = 0 then 2 else 3 := by
  revert b
  decide

/-- Settles O4: three bytes decode, what was decoded is encoded there, and its first byte gives the length. -/
theorem everyByteBeginsAnInstruction : Obligations.EveryByteBeginsAnInstruction := by
  intro b x y rest
  obtain ⟨i, r, hd⟩ := decode_of_three b x y rest
  obtain ⟨b', l, he, hl⟩ := encode_eq_cons i
  have hbytes := encode_of_decode hd
  rw [he] at hbytes
  obtain ⟨rfl, htail⟩ := List.cons.inj hbytes
  refine ⟨i, ?_, by rw [he]; exact hl, lengthOf_eq b⟩
  rw [hd, htail, ← hl, Nat.add_sub_cancel]
  exact congrArg (fun t => Except.ok (i, t)) List.drop_left.symm

/-- Settles O3: each word evaluates through the decoder. -/
theorem writtenWordsDecode : Obligations.WrittenWordsDecode := by
  unfold Obligations.WrittenWordsDecode
  decide

/-! ## The fetch -/

theorem fetchBytes_eq_map (s : State) :
    fetchBytes s = (List.range 3).map fun k => s.mem.byte (s.pc + BitVec.ofNat 16 k) := by
  simp [fetchBytes, List.range_succ]

theorem lengthOf_le (b : Byte) : lengthOf b ≤ 3 := by
  unfold lengthOf
  split
  · decide
  · split <;> decide

theorem encode_length_le (i : Instr) : (encode i).length ≤ 3 := by
  obtain ⟨b, l, he, hl⟩ := encode_eq_cons i
  rw [he, List.length_cons, hl]
  exact lengthOf_le b

/-- The bytes of memory from pc on are the encoding of `i`. -/
def InstrAtPc (s : State) (i : Instr) : Prop :=
  ∀ k : Nat, (h : k < (encode i).length) → s.mem.byte (s.pc + BitVec.ofNat 16 k) = (encode i)[k]'h

/-- The fetch sees the encoding of an instruction that lies at pc. -/
theorem instrAtPc_iff_fetch (s : State) (i : Instr) : InstrAtPc s i ↔ encode i <+: fetchBytes s := by
  have hlen := encode_length_le i
  rw [List.prefix_iff_getElem, fetchBytes_eq_map]
  simp only [List.length_map, List.length_range, List.getElem_map, List.getElem_range]
  exact ⟨fun h => ⟨hlen, fun k hk => (h k hk).symm⟩, fun ⟨_, h⟩ k hk => (h k hk).symm⟩

theorem exists_instrAtPc (s : State) : ∃ i, InstrAtPc s i := by
  obtain ⟨i, rest, hd⟩ := fetch_decodes s
  exact ⟨i, (instrAtPc_iff_fetch s i).2 ⟨rest, (encode_of_decode hd).symm⟩⟩

theorem step_of_instrAtPc {s : State} {i : Instr} (hr : s.running = true) (h : InstrAtPc s i) :
    step s = exec i { s with pc := s.pc + 1#16 } := by
  obtain ⟨rest, hrest⟩ := (instrAtPc_iff_fetch s i).1 h
  exact step_of_decode hr (hrest ▸ decode_encode i rest)

/-- Settles O6: the three bytes of a fetch begin with the instruction at pc, and some instruction always is there. -/
theorem stepRunsTheDecodedInstruction : Obligations.StepRunsTheDecodedInstruction :=
  ⟨fun _ _ hr _ h => step_of_instrAtPc hr h, fun s => (exists_instrAtPc s).imp fun _ h => ⟨rfl, h⟩⟩

end Sys2Proof.Machine
end

section
/-! The closed-form effects of the opcodes (spec/41_stack.md, 42_logic_jump.md, 43_memory_device.md, 44_arithmetic.md):
an opcode obeys the effect that its body's pops, pushes and last micro-op add up to. -/

namespace Sys2Proof.Machine

/-! ## From a body to its effect -/

/-- A body that pops the bytes of an effect, pushes its bytes and then does its rest gives its opcode that effect. -/
theorem opcodeObeys_of_body (o : Opcode) (e : Mode → State → Effect) (tail : Mode → State → MicroOp Unit)
    (hbody : ∀ m s, bodyOf o m.ctx (midPops m s 0) =
      if (e m s).need ≤ (s.stack m.src).ptr.toNat then
        (pushList (e m s).onto (e m s).push >>= fun _ => tail m s) (midPops m s (e m s).need)
      else .error .fault (starvedAt m s (e m s).need))
    (htail : ∀ m s t, t.faultsClear → t.mem = s.mem → t.pc = s.pc → tail m s t = .ok () ((e m s).rest t))
    (hrest : ∀ m s t, t.faultsClear → ((e m s).rest t).faultsClear) : OpcodeObeys o o.index e := by
  refine ⟨encodedAt o, fun m s hc => ?_⟩
  rw [exec_form]
  exact runOp_obeys m o.index (bodyOf o) s (e m s) (tail m s) hc (hbody m s) (htail m s) (hrest m s)

/-- A body that only works on its source stack. -/
theorem opcodeObeys_stackEffect (o : Opcode) (need : Mode → Nat) (bytes : Mode → State → List Byte)
    (hbody : ∀ m s, bodyOf o m.ctx (midPops m s 0) =
      if need m ≤ (s.stack m.src).ptr.toNat then pushList m.src (bytes m s) (midPops m s (need m))
      else .error .fault (starvedAt m s (need m))) :
    OpcodeObeys o o.index fun m s => stackEffect m (need m) (bytes m s) :=
  opcodeObeys_of_body o _ (fun _ _ => pure ()) (fun m s => by rw [hbody, stackEffect, pushList_pure])
    (fun _ _ _ _ _ _ => rfl) fun _ _ _ h => h

/-- A body that pushes nothing and ends with one micro-op. -/
theorem opcodeObeys_of_tail (o : Opcode) (need : Mode → Nat) (rest : Mode → State → State → State)
    (tail : Mode → State → MicroOp Unit)
    (hbody : ∀ m s, bodyOf o m.ctx (midPops m s 0) =
      if need m ≤ (s.stack m.src).ptr.toNat then tail m s (midPops m s (need m))
      else .error .fault (starvedAt m s (need m)))
    (htail : ∀ m s t, t.pc = s.pc → tail m s t = .ok () (rest m s t))
    (hrest : ∀ m s t, t.faultsClear → (rest m s t).faultsClear) :
    OpcodeObeys o o.index fun m s => ⟨need m, m.src, [], rest m s⟩ :=
  opcodeObeys_of_body o _ tail hbody (fun m s t _ _ hpc => htail m s t hpc) hrest

/-! ## Pushes in bytes -/

theorem pushW_eq_pushList (c : Ctx) (v : Short) : pushW c v = pushList c.src (itemBytes c.width v) :=
  push_eq_pushList _ _ _

theorem push_byte_eq_pushList (i : StackId) (v : Short) : push i .byte v = pushList i [loByte v] :=
  push_eq_pushList _ _ _

theorem popW_ctx (m : Mode) : popW m.ctx = pop m.ctx m.width := rfl

/-! ## Stack manipulation -/

/-- Settles O8: one operand, one result. -/
theorem incAddsOne : Obligations.IncAddsOne := by
  refine opcodeObeys_stackEffect .inc _ _ fun m s => ?_
  simp only [bodyOf, incBody, popW_ctx, pop_first, pushW_eq_pushList, ctx_src, ctx_width]

/-- Settles O9: one operand, nothing pushed. -/
theorem popDropsTheTop : Obligations.PopDropsTheTop := by
  refine opcodeObeys_stackEffect .pop _ _ fun m s => ?_
  simp only [bodyOf, popBody, popW_ctx, pop_first, pushList]

/-- Settles O10: the operand pushed twice. -/
theorem dupCopiesTheTop : Obligations.DupCopiesTheTop := by
  refine opcodeObeys_stackEffect .dup _ _ fun m s => ?_
  simp only [bodyOf, dupBody, popW_ctx, pop_first, pushW_eq_pushList, pushList_append, ctx_src, ctx_width]

/-- Settles O11: two operands, the first popped pushed again. -/
theorem nipDropsTheSecond : Obligations.NipDropsTheSecond := by
  refine opcodeObeys_stackEffect .nip _ _ fun m s => ?_
  simp only [bodyOf, nipBody, popW_ctx, pop_two, pushW_eq_pushList, ctx_src, ctx_width, Nat.two_mul]

/-- Settles O12: two operands, pushed in the order of the pops. -/
theorem swpSwapsTheTopTwo : Obligations.SwpSwapsTheTopTwo := by
  refine opcodeObeys_stackEffect .swp _ _ fun m s => ?_
  simp only [bodyOf, swpBody, popW_ctx, pop_two, pushW_eq_pushList, pushList_append, ctx_src, ctx_width, Nat.two_mul]

/-- Settles O13: two operands, three results. -/
theorem ovrCopiesTheSecond : Obligations.OvrCopiesTheSecond := by
  refine opcodeObeys_stackEffect .ovr _ _ fun m s => ?_
  simp only [bodyOf, ovrBody, popW_ctx, pop_two, pushW_eq_pushList, pushList_append, ctx_src, ctx_width, Nat.two_mul,
    List.append_assoc]

/-- Settles O14: three operands, three results. -/
theorem rotBringsUpTheThird : Obligations.RotBringsUpTheThird := by
  refine opcodeObeys_stackEffect .rot _ _ fun m s => ?_
  have three : m.width.bytes + m.width.bytes + m.width.bytes = 3 * m.width.bytes := by omega
  simp only [bodyOf, rotBody, popW_ctx, pop_three, pushW_eq_pushList, pushList_append, ctx_src, ctx_width, three,
    Nat.two_mul, List.append_assoc]

/-! ## Binary operations -/

/-- An opcode whose body is a binary operation that agrees with `f` on numbers, mod 2^16, has the effect of `f`. -/
theorem opcodeObeys_binaryEffect (o : Opcode) {g : Short → Short → Short} (f : Nat → Nat → Nat) (ho : bodyOf o = binary g)
    (hg : ∀ b a, g b a = BitVec.ofNat 16 (f b.toNat a.toNat)) : OpcodeObeys o o.index (binaryEffect f) := by
  refine opcodeObeys_stackEffect o _ _ fun m s => ?_
  simp only [ho, binary, popW_ctx, pop_two, pushW_eq_pushList, ctx_src, ctx_width, Nat.two_mul, hg]

/-- Settles O35: the sum of words is that of their numbers, mod 2^16. -/
theorem addIsModular : Obligations.AddIsModular :=
  opcodeObeys_binaryEffect .add _ rfl fun b a => by simp [BitVec.ofNat_add]

/-- Settles O36: below 2^16 the sum with 65536 never goes under zero. -/
theorem subIsModular : Obligations.SubIsModular :=
  opcodeObeys_binaryEffect .sub _ rfl fun b a => by
    have := a.isLt
    apply BitVec.eq_of_toNat_eq
    rw [BitVec.toNat_sub, BitVec.toNat_ofNat]
    congr 1
    omega

/-- Settles O37: the product of words is that of their numbers, mod 2^16. -/
theorem mulKeepsTheLowHalf : Obligations.MulKeepsTheLowHalf :=
  opcodeObeys_binaryEffect .mul _ rfl fun b a => by simp [BitVec.ofNat_mul]

/-- Settles O39: each operation is that of the numbers' bits. -/
theorem bitwiseOpsWorkBitByBit : Obligations.BitwiseOpsWorkBitByBit :=
  ⟨opcodeObeys_binaryEffect .and _ rfl fun b a => by rw [← BitVec.toNat_and, BitVec.ofNat_toNat, BitVec.setWidth_eq],
   opcodeObeys_binaryEffect .ora _ rfl fun b a => by rw [← BitVec.toNat_or, BitVec.ofNat_toNat, BitVec.setWidth_eq],
   opcodeObeys_binaryEffect .eor _ rfl fun b a => by rw [← BitVec.toNat_xor, BitVec.ofNat_toNat, BitVec.setWidth_eq]⟩

/-! ## Comparisons -/

theorem loByte_flagByte (f : Bool) : loByte (flagByte f) = if f then 0x01#8 else 0x00#8 := by
  cases f <;> rfl

/-- An opcode whose body is a comparison that agrees with `f` on numbers has the effect of `f`. -/
theorem opcodeObeys_compareEffect (o : Opcode) {g : Short → Short → Bool} (f : Nat → Nat → Bool)
    (ho : bodyOf o = comparison g) (hg : ∀ b a, g b a = f b.toNat a.toNat) :
    OpcodeObeys o o.index (compareEffect f) := by
  refine opcodeObeys_stackEffect o _ _ fun m s => ?_
  simp only [ho, comparison, popW_ctx, pop_two, push_byte_eq_pushList, loByte_flagByte, ctx_src, Nat.two_mul, hg]

/-- Settles O15: the four comparisons of words are those of their numbers. -/
theorem comparisonsPushOneByte : Obligations.ComparisonsPushOneByte :=
  ⟨opcodeObeys_compareEffect .equ _ rfl fun b a => by simp [← BitVec.toNat_inj, beq_eq_decide],
   opcodeObeys_compareEffect .neq _ rfl fun b a => by simp [← BitVec.toNat_inj, bne, beq_eq_decide],
   opcodeObeys_compareEffect .gth _ rfl fun b a => by simp [BitVec.lt_def],
   opcodeObeys_compareEffect .lth _ rfl fun b a => by simp [BitVec.lt_def]⟩

end Sys2Proof.Machine
end

section
/-! The closed-form effects, continued: what comes after the pops and pushes is a jump, a load, a store or a shift. -/

namespace Sys2Proof.Machine

@[simp] theorem midPops_pc (m : Mode) (s : State) (n : Nat) : (midPops m s n).pc = s.pc := setStack_pc ..
@[simp] theorem midPops_mem (m : Mode) (s : State) (n : Nat) : (midPops m s n).mem = s.mem := setStack_mem ..
@[simp] theorem midPops_talkIn (m : Mode) (s : State) (n : Nat) : (midPops m s n).talkIn = s.talkIn := setStack_talkIn ..

theorem item_byte (S : Stack) (n : Nat) : S.item .byte n = zext8 (S.byteAt n) := rfl

theorem bytes_byte : Width.bytes .byte = 1 := rfl

theorem bytes_short : Width.bytes .short = 2 := rfl

/-! ## Control transfer -/

theorem target_eq_jumpTarget (m : Mode) (pc t : Short) : target m.width pc t = jumpTarget m pc t := by
  obtain ⟨_, _, _ | _⟩ := m <;> rfl

/-- Settles O16: the popped target, relative to the pc past the opcode byte. -/
theorem jmpGoesToItsTarget : Obligations.JmpGoesToItsTarget := by
  refine opcodeObeys_of_tail .jmp _ _ (fun m s => setPc (jumpTarget m s.pc ((s.stack m.src).item m.width 0)))
    (fun m s => ?_) (fun _ _ _ _ => rfl) fun _ _ _ h => h
  simp only [bodyOf, jmpBody, popW_ctx, pop_first, getPc_bind, midPops_pc, target_eq_jumpTarget, ctx_width]

theorem conditionHolds_zext8 (b : Byte) : conditionHolds (zext8 b) = true ↔ b ≠ 0x00#8 := by
  revert b
  decide

/-- Settles O17: the jump of JMP under the condition byte below its target. -/
theorem jnzJumpsOnNonZero : Obligations.JnzJumpsOnNonZero := by
  refine opcodeObeys_of_tail .jnz _ _
    (fun m s => if (s.stack m.src).byteAt m.width.bytes ≠ 0x00#8
      then setPc (jumpTarget m s.pc ((s.stack m.src).item m.width 0)) else pure ())
    (fun m s => ?_) (fun m s t _ => ?_) fun m s t h => ?_
  · simp only [bodyOf, jnzBody, popW_ctx, pop_two, getPc_bind, midPops_pc, target_eq_jumpTarget, ctx_width, item_byte,
      conditionHolds_zext8, bytes_byte]
  · by_cases hb : (s.stack m.src).byteAt m.width.bytes = 0x00#8 <;> simp [hb]
  · split <;> exact h

/-- Settles O18: the link goes on the destination stack before the jump. -/
theorem jsrLinksAndJumps : Obligations.JsrLinksAndJumps := by
  refine opcodeObeys_of_body .jsr _ (fun m s => setPc (jumpTarget m s.pc ((s.stack m.src).item m.width 0)))
    (fun m s => ?_) (fun _ _ _ _ _ _ => rfl) fun _ _ _ h => h
  simp only [bodyOf, jsrBody, popW_ctx, pop_first, getPc_bind, midPops_pc, target_eq_jumpTarget, ctx_width, ctx_dst,
    push_eq_pushList, itemBytes]

/-- Settles O19: the operand goes on the destination stack. -/
theorem sthMovesToTheOtherStack : Obligations.SthMovesToTheOtherStack := by
  refine opcodeObeys_of_body .sth _ (fun _ _ => pure ()) (fun m s => ?_) (fun _ _ _ _ _ _ => rfl) fun _ _ _ h => h
  simp only [bodyOf, sthBody, popW_ctx, pop_first, ctx_width, ctx_dst, push_eq_pushList, pushList_pure]

/-! ## Loads and stores -/

theorem zeroPage_zext8 (b : Byte) : zeroPage (zext8 b) = zeroPageAddress b := by
  rw [zeroPage, loByte_zext8, zeroPageAddress, zext8, BitVec.ofNat_toNat]

theorem relative_zext8 (pc : Short) (b : Byte) : relative pc (zext8 b) = relativeAddress pc b := by
  rw [relative, loByte_zext8]
  rfl

/-- Settles O20: a load at the popped byte. -/
theorem ldzLoadsFromTheZeroPage : Obligations.LdzLoadsFromTheZeroPage := by
  refine opcodeObeys_stackEffect .ldz _ _ fun m s => ?_
  simp only [bodyOf, ldzBody, pop_first, bytes_byte, memRead_bind, midPops_mem, item_byte, zeroPage_zext8,
    pushW_eq_pushList, ctx_src, ctx_width]

/-- Settles O22: a load at the popped offset from the pc past the opcode byte. -/
theorem ldrLoadsRelativeToPc : Obligations.LdrLoadsRelativeToPc := by
  refine opcodeObeys_stackEffect .ldr _ _ fun m s => ?_
  simp only [bodyOf, ldrBody, pop_first, bytes_byte, getPc_bind, midPops_pc, memRead_bind, midPops_mem, item_byte,
    relative_zext8, pushW_eq_pushList, ctx_src, ctx_width]

/-- Settles O24: a load at the popped short. -/
theorem ldaLoadsFromAnAddress : Obligations.LdaLoadsFromAnAddress := by
  refine opcodeObeys_stackEffect .lda _ _ fun m s => ?_
  simp only [bodyOf, ldaBody, pop_first, bytes_short, memRead_bind, midPops_mem, pushW_eq_pushList, ctx_src, ctx_width]

/-- A body that pops and then stores gives its opcode the effect of that store. -/
theorem opcodeObeys_storeEffect (o : Opcode) (need : Mode → Nat) (addr val : Mode → State → Short)
    (hbody : ∀ m s, bodyOf o m.ctx (midPops m s 0) =
      if need m ≤ (s.stack m.src).ptr.toNat then memWrite (addr m s) m.width (val m s) (midPops m s (need m))
      else .error .fault (starvedAt m s (need m))) :
    OpcodeObeys o o.index fun m s => storeEffect m (need m) (addr m s) (val m s) :=
  opcodeObeys_of_tail o need _ (fun m s => memWrite (addr m s) m.width (val m s)) hbody (fun _ _ _ _ => rfl)
    fun _ _ _ h => h

/-- What the body of STZ does. -/
theorem stzBody_run (m : Mode) (s : State) : stzBody m.ctx (midPops m s 0) =
    if 1 + m.width.bytes ≤ (s.stack m.src).ptr.toNat then
      memWrite (zeroPage (zext8 ((s.stack m.src).byteAt 0))) m.width ((s.stack m.src).item m.width 1)
        (midPops m s (1 + m.width.bytes))
    else .error .fault (starvedAt m s (1 + m.width.bytes)) :=
  pop_two m s .byte m.width fun a v => memWrite (zeroPage a) m.width v

/-- What the body of STR does. -/
theorem strBody_run (m : Mode) (s : State) : strBody m.ctx (midPops m s 0) =
    if 1 + m.width.bytes ≤ (s.stack m.src).ptr.toNat then
      memWrite (relative s.pc (zext8 ((s.stack m.src).byteAt 0))) m.width ((s.stack m.src).item m.width 1)
        (midPops m s (1 + m.width.bytes))
    else .error .fault (starvedAt m s (1 + m.width.bytes)) := by
  simp only [← midPops_pc m s (1 + m.width.bytes)]
  exact pop_two m s .byte m.width fun o v => getPc >>= fun pc => memWrite (relative pc o) m.width v

/-- What the body of STA does. -/
theorem staBody_run (m : Mode) (s : State) : staBody m.ctx (midPops m s 0) =
    if 2 + m.width.bytes ≤ (s.stack m.src).ptr.toNat then
      memWrite ((s.stack m.src).item .short 0) m.width ((s.stack m.src).item m.width 2)
        (midPops m s (2 + m.width.bytes))
    else .error .fault (starvedAt m s (2 + m.width.bytes)) :=
  pop_two m s .short m.width fun a v => memWrite a m.width v

/-- Settles O21: the run of the body, at the popped byte. -/
theorem stzStoresToTheZeroPage : Obligations.StzStoresToTheZeroPage := by
  refine opcodeObeys_storeEffect .stz _ _ _ fun m s => ?_
  rw [← zeroPage_zext8]
  exact stzBody_run m s

/-- Settles O23: the run of the body, at the popped offset. -/
theorem strStoresRelativeToPc : Obligations.StrStoresRelativeToPc := by
  refine opcodeObeys_storeEffect .str _ _ _ fun m s => ?_
  rw [← relative_zext8]
  exact strBody_run m s

/-- Settles O25: the run of the body, at the popped short. -/
theorem staStoresToAnAddress : Obligations.StaStoresToAnAddress :=
  opcodeObeys_storeEffect .sta _ _ _ staBody_run

/-! ## SFT -/

theorem shiftResult_zext8 (v : Short) (c : Byte) :
    shiftResult v (zext8 c) = BitVec.ofNat 16 ((v.toNat >>> (c.toNat % 8)) <<< (c.toNat / 16 % 8)) := by
  have right : ((zext8 c).extractLsb' 0 3).toNat = c.toNat % 8 := by simp [zext8]
  have left : ((zext8 c).extractLsb' 4 3).toNat = c.toNat / 16 % 8 := by
    simp [zext8, Nat.shiftRight_eq_div_pow]; omega
  apply BitVec.eq_of_toNat_eq
  simp [shiftResult, right, left]

/-- Settles O40: the shifts by the two fields of the control byte. -/
theorem sftShiftsRightThenLeft : Obligations.SftShiftsRightThenLeft := by
  refine opcodeObeys_stackEffect .sft _ _ fun m s => ?_
  simp only [bodyOf, sftBody, popW_ctx, pop_two, bytes_byte, item_byte, shiftResult_zext8, pushW_eq_pushList, ctx_src,
    ctx_width]

/-! ## LIT -/

theorem itemBytes_litValue (m : Mode) (v : Short) : itemBytes m.width (litValue m v) = itemBytes m.width v := by
  unfold litValue
  cases m.width <;> simp [itemBytes, byteLiteral]

theorem litBody_run (m : Mode) (v : Short) (s : State) :
    litBody v m.ctx s = (pushList m.src (itemBytes m.width v) >>=
      fun _ => getPc >>= fun pc => setPc (pc + BitVec.ofNat 16 m.width.bytes)) s := by
  rw [litBody, pushW_eq_pushList]
  rfl

theorem litInstr_obeys {m : Mode} (hm : m ≠ ⟨false, false, false⟩) (v : Short) :
    Obeys (litInstr m v) m 0x00#5 fun s =>
      ⟨0, m.src, itemBytes m.width v, fun t => { t with pc := s.pc + BitVec.ofNat 16 m.width.bytes }⟩ := by
  intro s hc
  rw [exec_litInstr m v s hm]
  refine runOp_obeys m 0x00#5 _ s _ (getPc >>= fun pc => setPc (pc + BitVec.ofNat 16 m.width.bytes)) hc ?_
    (fun t _ _ hpc => ?_) fun _ h => h
  · rw [if_pos (Nat.zero_le _), litBody_run, itemBytes_litValue]
  · rw [getPc_bind, setPc_run, hpc]

/-- The literal of a LIT form is read from the two bytes after its opcode byte (R119). -/
theorem decode_fetchBytes_lit {m : Mode} (hm : m ≠ ⟨false, false, false⟩) {s : State}
    (hb : s.mem.byte s.pc = m.opcodeByte 0#5) :
    ∃ rest, decode (fetchBytes s) = .ok (litInstr m (s.mem.read (s.pc + 1#16) m.width), rest) := by
  have hpc : s.pc + 1#16 + 1#16 = s.pc + 2#16 := by rw [BitVec.add_assoc]; rfl
  have hlist : ∃ rest, fetchBytes s =
      m.opcodeByte 0#5 :: (itemBytes m.width (s.mem.read (s.pc + 1#16) m.width) ++ rest) := by
    rw [fetchBytes, hb]
    cases m.width with
    | byte => exact ⟨_, by simp [itemBytes, Memory.read]; rfl⟩
    | short => exact ⟨[], by simp [itemBytes, Memory.read, hpc]⟩
  obtain ⟨rest, he⟩ := hlist
  exact ⟨rest, by rw [he, decode_opcodeByte_zero hm, decodeLit_itemBytes hm]⟩

/-- Settles O7: the effect of the push and the skip, and the fetch of the literal. -/
theorem litPushesTheLiteralAndSkipsIt : Obligations.LitPushesTheLiteralAndSkipsIt := by
  refine fun m hm => ⟨litInstr_obeys hm, fun s hr hb => ?_⟩
  obtain ⟨rest, hd⟩ := decode_fetchBytes_lit hm hb
  exact step_of_decode hr hd

/-! ## DIV -/

/-- A body that runs out of bytes has its instruction take Underflow on its source stack. -/
theorem runOp_of_starved {m : Mode} {op : BitVec 5} {body : Ctx → MicroOp Unit} {s : State} {n : Nat}
    (hc : s.faultsClear) (h : body m.ctx (midPops m s 0) = .error .fault (starvedAt m s n)) :
    runOp m op body s = .next (takeFault m.src .underflow (m.opcodeByte op) (starvedAt m s n)) := by
  rw [runOp_eq, h]
  exact settle_withFault _ _ _ _ hc

theorem divBody_run (m : Mode) (s : State) : divBody m.ctx (midPops m s 0) =
    if 2 * m.width.bytes ≤ (s.stack m.src).ptr.toNat then
      (if (s.stack m.src).item m.width 0 = 0#16 then raise m.src .divideByZero
        else pushList m.src (itemBytes m.width
          ((s.stack m.src).item m.width m.width.bytes / (s.stack m.src).item m.width 0)))
        (midPops m s (2 * m.width.bytes))
    else .error .fault (starvedAt m s (2 * m.width.bytes)) := by
  simp only [divBody, popW_ctx, pop_two, pushW_eq_pushList, ctx_src, ctx_width, Nat.two_mul]

theorem udiv_eq_ofNat (b a : Short) : b / a = BitVec.ofNat 16 (b.toNat / a.toNat) := by
  have := Nat.div_le_self b.toNat a.toNat
  apply BitVec.eq_of_toNat_eq
  rw [BitVec.toNat_udiv, BitVec.toNat_ofNat, Nat.mod_eq_of_lt (by omega)]

/-- With a divisor that is not 0, DIV is a binary operation. -/
theorem divBody_obeys {m : Mode} {s : State} (hc : s.faultsClear) (ha : (s.stack m.src).item m.width 0 ≠ 0#16) :
    let e := binaryEffect (fun b a => b / a) m s
    (e.Fits m s → runOp m 0x1B#5 divBody s = .next (e.apply m s)) ∧
    (e.Starves m s → runOp m 0x1B#5 divBody s =
      .next (takeFault m.src .underflow (m.opcodeByte 0x1B#5) (e.starved m s))) ∧
    (e.Spills m s → runOp m 0x1B#5 divBody s =
      .next (takeFault e.onto .overflow (m.opcodeByte 0x1B#5) (e.spilled m s))) := by
  refine runOp_obeys m 0x1B#5 divBody s _ (pure ()) hc ?_ (fun _ _ _ _ => rfl) fun _ h => h
  rw [divBody_run, if_neg ha, udiv_eq_ofNat, pushList_pure]
  rfl

/-- Settles O38: a binary operation for a divisor that is not 0; else the fault raised after the pops. -/
theorem divDividesOrFaults : Obligations.DivDividesOrFaults := by
  refine ⟨encodedAt .div, fun m s hc => ?_⟩
  rw [exec_divForm]
  refine ⟨fun hf ha => (divBody_obeys hc ha).1 hf, fun hs ha => (divBody_obeys hc ha).2.2 hs, fun hn ha => ?_,
    fun hs => runOp_of_starved hc ((divBody_run m s).trans (if_neg (Nat.not_le.2 hs)))⟩
  rw [runOp_eq, divBody_run, if_pos hn, if_pos ha]
  have := settle_withFault (m.opcodeByte 0x1B#5) m.src .divideByZero
    ((s.stack m.src).popped m.keep (2 * m.width.bytes)) hc
  simpa [raise, midPops, Stack.withFault] using this

end Sys2Proof.Machine
end

section
/-! Memory and its stores (spec/20_memory.md section 2): read after write, and the frame of STZ, STR and STA. -/

namespace Sys2Proof.Machine

/-! ## Read after write -/

theorem ne_add_one (a : Short) : a ≠ a + 1#16 := by bv_omega

theorem byte_write_of_not_stored (m : Memory) {a b : Short} {w : Width} (v : Short) (h : ¬ storedAt a w b) :
    Memory.byte (Memory.write m a v w) b = Memory.byte m b := by
  obtain ⟨ha, ha'⟩ := not_or.1 h
  rw [Memory.byte_write]
  cases w with
  | byte => exact if_neg ha
  | short => exact (if_neg fun e => ha' ⟨rfl, e⟩).trans (if_neg ha)

theorem byte_write_byte (m : Memory) (a v : Short) : Memory.byte (Memory.write m a v .byte) a = loByte v := by
  rw [Memory.byte_write]
  exact if_pos rfl

theorem byte_write_short_hi (m : Memory) (a v : Short) : Memory.byte (Memory.write m a v .short) a = hiByte v := by
  rw [Memory.byte_write]
  exact (if_neg (ne_add_one a)).trans (if_pos rfl)

theorem byte_write_short_lo (m : Memory) (a v : Short) : Memory.byte (Memory.write m a v .short) (a + 1#16) = loByte v := by
  rw [Memory.byte_write]
  exact if_pos rfl

theorem read_write (m : Memory) (a v : Short) (w : Width) :
    Memory.read (Memory.write m a v w) a w = match w with | .byte => zext8 (loByte v) | .short => v := by
  cases w with
  | byte => exact congrArg zext8 (byte_write_byte m a v)
  | short =>
    calc join (Memory.byte (Memory.write m a v .short) a) (Memory.byte (Memory.write m a v .short) (a + 1#16))
      _ = join (hiByte v) (loByte v) := by rw [byte_write_short_hi, byte_write_short_lo]
      _ = v := join_hi_lo v

theorem add_one_eq_ofNat (a : Short) : a + 1#16 = BitVec.ofNat 16 ((a.toNat + 1) % 65536) := by bv_omega

/-- Settles O26: what each byte is after a write, and the address of a short's second byte. -/
theorem memoryIsBigEndianAndWraps : Obligations.MemoryIsBigEndianAndWraps := fun m a v w =>
  ⟨read_write m a v w, byte_write_byte m a v, byte_write_short_hi m a v, byte_write_short_lo m a v,
    fun _ => byte_write_of_not_stored m v, congrArg (fun b => join (m.byte a) (m.byte b)) (add_one_eq_ofNat a)⟩

/-! ## The frame of a store -/

/-- From `s` to `t` memory changed at most where a store of mode `m` at `a` writes; the destination stack, the devices,
the pixel device and the reply inputs did not change. -/
def StoreFrame (a : Short) (m : Mode) (s t : State) : Prop :=
  (∀ b : Short, ¬ storedAt a m.width b → t.mem.byte b = s.mem.byte b) ∧
    t.stack m.dst = s.stack m.dst ∧ t.devs = s.devs ∧ t.ppu = s.ppu ∧ t.talkIn = s.talkIn ∧ t.draws = s.draws

theorem storeFrame_setStack (a : Short) (m : Mode) (s : State) (S : Stack) : StoreFrame a m s (s.setStack m.src S) :=
  ⟨fun b _ => by rw [setStack_mem], stack_setStack_other s S (dst_ne_src m), setStack_devs .., setStack_ppu ..,
    setStack_talkIn .., setStack_draws ..⟩

theorem StoreFrame.memWrite {a : Short} {m : Mode} {s t : State} (v : Short) (h : StoreFrame a m s t) :
    StoreFrame a m s { t with mem := t.mem.write a v m.width } := by
  obtain ⟨hmem, hdst, hrest⟩ := h
  refine ⟨fun b hb => (byte_write_of_not_stored t.mem v hb).trans (hmem b hb), ?_, hrest⟩
  rw [← hdst]
  cases m.dst <;> rfl

theorem StoreFrame.takeFault {a : Short} {m : Mode} {s t : State} (i : StackId) (k : FaultKind) (op : Byte)
    (h : StoreFrame a m s t) : StoreFrame a m s (takeFault i k op t) := by
  obtain ⟨hmem, hdst, hrest⟩ := h
  exact ⟨hmem, (takeFault_stack i m.dst k op t).trans hdst, hrest⟩

/-- The frame of an instruction whose body pops and then stores at `a`. -/
theorem runOp_storeFrame {m : Mode} {op : BitVec 5} {body : Ctx → MicroOp Unit} {s t : State} {n : Nat} {a v : Short}
    (hbody : body m.ctx (midPops m s 0) =
      if n ≤ (s.stack m.src).ptr.toNat then memWrite a m.width v (midPops m s n)
      else .error .fault (starvedAt m s n))
    (h : runOp m op body s = .next t) : StoreFrame a m s t := by
  have hsettle : ∃ u, StoreFrame a m s u ∧ settle (m.opcodeByte op) u = .next t := by
    rw [runOp_eq, hbody] at h
    by_cases hn : n ≤ (s.stack m.src).ptr.toNat
    · rw [if_pos hn] at h
      exact ⟨_, (storeFrame_setStack a m s _).memWrite v, h⟩
    · rw [if_neg hn] at h
      exact ⟨_, storeFrame_setStack a m s _, h⟩
  obtain ⟨u, hu, hset⟩ := hsettle
  rcases settle_next hset with ⟨_, rfl⟩ | ⟨i, k, _, rfl⟩
  · exact hu
  · exact hu.takeFault i k _

/-- Settles O27: each of the three bodies pops and then stores once. -/
theorem storesChangeOnlyTheirBytes : Obligations.StoresChangeOnlyTheirBytes := by
  intro m s t
  rw [exec_stzForm, exec_strForm, exec_staForm]
  have stz := runOp_storeFrame (op := 0x11#5) (t := t) (stzBody_run m s)
  have str := runOp_storeFrame (op := 0x13#5) (t := t) (strBody_run m s)
  have sta := runOp_storeFrame (op := 0x15#5) (t := t) (staBody_run m s)
  refine ⟨fun h => (stz h).1, fun h => (str h).1, fun h => (sta h).1, ?_⟩
  rintro (h | h | h)
  · exact (stz h).2
  · exact (str h).2
  · exact (sta h).2

end Sys2Proof.Machine
end

section
/-! The device bus and the device bodies (spec/20_memory.md section 4, spec/60_exceptions.md section 7): the bus protocol,
what a body may change, and DEI and DEO. -/

namespace Sys2Proof.Machine

/-! ## The bus protocol -/

theorem busWrite_get (d : Device) (l k : Nibble) (v : Byte) :
    (d.busWrite l v).get k = if k = l then v else d.get k := by
  rw [← get_put]
  unfold Device.busWrite
  dsimp only
  split <;> rfl

/-- The vector rule (R87). -/
theorem busWrite_vector (d : Device) (l : Nibble) (v : Byte) :
    (d.busWrite l v).vector =
      if l = 1#4 then join ((d.busWrite l v).get 0#4) ((d.busWrite l v).get 1#4) else d.vector := by
  unfold Device.busWrite
  dsimp only
  split <;> rfl

/-- Settles O31: a read is a `talk` and then a register; a write is a store in the register file and then a `talk`. -/
theorem busReadsAfterAndWritesBeforeTalk : Obligations.BusReadsAfterAndWritesBeforeTalk := by
  refine fun p l v s => ⟨fun t ht => bind_ok ht, (s.dev p).busWrite l v, deviceWrite_eq p l v s, ?_, fun k hk => ?_,
    busWrite_vector ..⟩
  · rw [busWrite_get, if_pos rfl]
  · rw [busWrite_get, if_neg hk]

theorem talkReenters_of_noop {p : Nibble} (s : State) (h : Params.noopPort p = true) : s.talkReenters p = false := by
  simp [State.talkReenters, h]

theorem talk_of_noop {p : Nibble} (l : Nibble) (b : Bool) (s : State) (h : Params.noopPort p = true) :
    talk p l b s = .ok () s := by
  rw [talk_ok p l b s (talkReenters_of_noop s h), afterTalk_noop p l b s h]

theorem noopPort_iff (p : Nibble) : Params.noopPort p = true ↔ p.toNat ∈ [0x7, 0xC, 0xD, 0xE, 0xF] := by
  revert p
  decide

/-- Settles O32: the list of ports, and a `talk` that does nothing. -/
theorem noopPortsOnlyHoldRegisters : Obligations.NoopPortsOnlyHoldRegisters := by
  refine ⟨noopPort_iff, fun p l v b s h => ⟨talk_of_noop l b s h, bind_ok (talk_of_noop l false s h), ?_⟩⟩
  rw [deviceWrite_eq]
  exact talk_of_noop l true _ h

/-! ## What a body may change -/

/-- A part of the state that neither the reply inputs nor any effect of a body reach is as before after `talk`. -/
theorem afterTalk_keeps {β : Type} (f : State → β) {p : Nibble} (l : Nibble) (b : Bool) (s : State)
    (hin : ∀ s r n, f { s with talkIn := r, draws := n } = f s) (hact : ∀ s x, f (s.act p x) = f s) :
    f (s.afterTalk p l b) = f s :=
  afterTalk_induction (P := fun t => f t = f s) l b rfl (fun _ _ => hin ..) fun t x h => (hact t x).trans h

section
variable (p l : Nibble) (b : Bool) (s : State)

@[simp] theorem afterTalk_wst : (s.afterTalk p l b).wst = s.wst :=
  afterTalk_keeps State.wst l b s (fun _ _ _ => rfl) (act_wst p)
@[simp] theorem afterTalk_rst : (s.afterTalk p l b).rst = s.rst :=
  afterTalk_keeps State.rst l b s (fun _ _ _ => rfl) (act_rst p)
@[simp] theorem afterTalk_pc : (s.afterTalk p l b).pc = s.pc :=
  afterTalk_keeps State.pc l b s (fun _ _ _ => rfl) (act_pc p)
@[simp] theorem afterTalk_lastFault : (s.afterTalk p l b).lastFault = s.lastFault :=
  afterTalk_keeps State.lastFault l b s (fun _ _ _ => rfl) (act_lastFault p)
@[simp] theorem afterTalk_running : (s.afterTalk p l b).running = s.running :=
  afterTalk_keeps State.running l b s (fun _ _ _ => rfl) (act_running p)
@[simp] theorem afterTalk_result : (s.afterTalk p l b).result = s.result :=
  afterTalk_keeps State.result l b s (fun _ _ _ => rfl) (act_result p)
@[simp] theorem afterTalk_hostIn : (s.afterTalk p l b).hostIn = s.hostIn :=
  afterTalk_keeps State.hostIn l b s (fun _ _ _ => rfl) (act_hostIn p)
@[simp] theorem afterTalk_loadWindow : (s.afterTalk p l b).loadWindow = s.loadWindow :=
  afterTalk_keeps State.loadWindow l b s (fun _ _ _ => rfl) (act_loadWindow p)
@[simp] theorem afterTalk_pcPolicy : (s.afterTalk p l b).pcPolicy = s.pcPolicy :=
  afterTalk_keeps State.pcPolicy l b s (fun _ _ _ => rfl) (act_pcPolicy p)
@[simp] theorem afterTalk_nibble : (s.afterTalk p l b).nibble = s.nibble :=
  afterTalk_keeps State.nibble l b s (fun _ _ _ => rfl) (act_nibble p)

theorem afterTalk_dev_other {q : Nibble} (h : q ≠ p) : (s.afterTalk p l b).dev q = s.dev q :=
  afterTalk_keeps (fun t => t.dev q) l b s (fun _ _ _ => rfl) fun t x => act_dev_other p t x h

end

theorem afterTalk_of_returns {p : Nibble} (l : Nibble) (b : Bool) {s : State} {acts : List TalkAction}
    {rest : List TalkReply} (hp : Params.noopPort p = false) (h : s.talkIn = .returns acts :: rest) :
    s.afterTalk p l b = State.actAll p { s with talkIn := rest, draws := s.draws + 1 } acts := by
  simp [State.afterTalk, hp, h]

theorem afterTalk_of_nil {p : Nibble} (l : Nibble) (b : Bool) {s : State} (hp : Params.noopPort p = false)
    (h : s.talkIn = []) :
    s.afterTalk p l b = State.actAll p { s with draws := s.draws + 1 } (Config.talkReply s p l b) := by
  simp [State.afterTalk, hp, h]

theorem talkReenters_of_returns {p : Nibble} {s : State} {acts : List TalkAction} {rest : List TalkReply}
    (h : s.talkIn = .returns acts :: rest) : s.talkReenters p = false := by
  simp [State.talkReenters, h]

theorem talkReenters_of_nil {p : Nibble} {s : State} (h : s.talkIn = []) : s.talkReenters p = false := by
  simp [State.talkReenters, h]

/-- Settles O33: the frame of `talk` field by field, and its reply performed in order. -/
theorem talkChangesOnlyWhatABodyMay : Obligations.TalkChangesOnlyWhatABodyMay := by
  refine ⟨fun p l b s => ⟨afterTalk_wst .., afterTalk_rst .., afterTalk_pc .., afterTalk_lastFault ..,
    afterTalk_running .., afterTalk_result .., afterTalk_hostIn .., afterTalk_loadWindow .., afterTalk_pcPolicy ..,
    afterTalk_nibble .., fun _ => afterTalk_dev_other p l b s⟩,
    fun p l b s hp => ⟨fun acts rest h => ⟨talk_ok p l b s (talkReenters_of_returns h), ?_⟩,
      fun h => ⟨talk_ok p l b s (talkReenters_of_nil h), Config.talkReply s p l b, ?_⟩⟩,
    fun d mem => ⟨fun _ _ => rfl, fun _ _ _ _ => rfl, fun _ _ => rfl, rfl, fun _ => rfl, fun _ => rfl⟩⟩
  · rw [afterTalk_of_returns l b hp h]
    exact actAll_in_order p acts _
  · rw [afterTalk_of_nil l b hp h]
    exact actAll_in_order p _ _

/-! ## DEI and DEO -/

theorem deiBody_run (m : Mode) (s : State) : deiBody m.ctx (midPops m s 0) =
    if 1 ≤ (s.stack m.src).ptr.toNat then
      (devRead ((s.stack m.src).byteAt 0) m.width >>= fun v => pushList m.src (itemBytes m.width v)) (midPops m s 1)
    else .error .fault (starvedAt m s 1) := by
  simp only [deiBody, pop_first, bytes_byte, item_byte, loByte_zext8, pushW_eq_pushList, ctx_src, ctx_width]

theorem deoBody_run (m : Mode) (s : State) : deoBody m.ctx (midPops m s 0) =
    if 1 + m.width.bytes ≤ (s.stack m.src).ptr.toNat then
      devWrite ((s.stack m.src).byteAt 0) m.width ((s.stack m.src).item m.width 1) (midPops m s (1 + m.width.bytes))
    else .error .fault (starvedAt m s (1 + m.width.bytes)) := by
  simp only [deoBody, popW_ctx, pop_two, bytes_byte, item_byte, loByte_zext8, ctx_width]

theorem bodyObeys_midPops {m : Mode} {s : State} {a : Byte} {k : Nat} (n : Nat) (h : s.bodyObeys a k) :
    (midPops m s n).bodyObeys a k := by
  rwa [State.bodyObeys, midPops_talkIn]

theorem faultsClear_afterTalk {s : State} (hc : s.faultsClear) (p l : Nibble) (b : Bool) :
    (s.afterTalk p l b).faultsClear := by
  rwa [State.faultsClear, afterTalk_wst, afterTalk_rst]

theorem faultsClear_afterBusRead {s : State} (hc : s.faultsClear) (a : Byte) (w : Width) :
    (s.afterBusRead a w).faultsClear := by
  cases w
  · exact faultsClear_afterTalk hc ..
  · exact faultsClear_afterTalk (faultsClear_afterTalk hc ..) ..

theorem faultsClear_afterBusByte {s : State} (hc : s.faultsClear) (p l : Nibble) (v : Byte) :
    (s.afterBusByte p l v).faultsClear :=
  faultsClear_afterTalk (s := s.setDev p _) hc ..

theorem faultsClear_afterBusWrite {s : State} (hc : s.faultsClear) (a : Byte) (w : Width) (v : Short) :
    (s.afterBusWrite a w v).faultsClear := by
  cases w
  · exact faultsClear_afterBusByte hc ..
  · exact faultsClear_afterBusByte (faultsClear_afterBusByte hc ..) ..

/-- An instruction whose body ends, after its pops, in a push of the bytes `l` completes or takes Overflow. -/
theorem settle_pushList {m : Mode} {op : BitVec 5} {body : Ctx → MicroOp Unit} {s t : State} {i : StackId} {l : List Byte}
    (hbody : body m.ctx (midPops m s 0) = pushList i l t) (hc : t.faultsClear) :
    ((t.stack i).ptr.toNat + l.length ≤ 255 → runOp m op body s = .next (t.setStack i ((t.stack i).pushed l))) ∧
    (255 < (t.stack i).ptr.toNat + l.length → runOp m op body s = .next (takeFault i .overflow (m.opcodeByte op)
      (t.setStack i (((t.stack i).pushed (l.take (255 - (t.stack i).ptr.toNat))).withFault .overflow)))) := by
  rw [runOp_eq, hbody, pushList_run]
  refine ⟨fun hfit => ?_, fun hspill => ?_⟩
  · rw [if_pos hfit]
    exact settle_clear _ (faultsClear_setStack hc i ((pushed_fault ..).trans (stack_fault hc i)))
  · rw [if_neg (Nat.not_le.2 hspill)]
    exact settle_withFault _ _ _ _ hc

/-- Settles O29: the pop, the bus read of a body that keeps its contract, and the push. -/
theorem deiTalksThenReads : Obligations.DeiTalksThenReads := by
  refine ⟨encodedAt .dei, fun m s hc => ?_⟩
  rw [exec_deiForm]
  refine ⟨fun hn hb => ?_, fun hn => runOp_of_starved hc ((deiBody_run m s).trans (if_neg (Nat.not_le.2 hn)))⟩
  have hrun : deiBody m.ctx (midPops m s 0) = _ :=
    (deiBody_run m s).trans ((if_pos hn).trans (bind_ok (devRead_ok (bodyObeys_midPops 1 hb))))
  have := settle_pushList (op := 0x16#5) hrun (faultsClear_afterBusRead (faultsClear_midPops hc m 1) _ _)
  rwa [itemBytes_length] at this

/-- Settles O30: the pops, and the bus write of a body that keeps its contract. -/
theorem deoStoresThenTalks : Obligations.DeoStoresThenTalks := by
  refine ⟨encodedAt .deo, fun m s hc => ?_⟩
  rw [exec_deoForm]
  refine ⟨fun hn hb => ?_, fun hn => runOp_of_starved hc ((deoBody_run m s).trans (if_neg (Nat.not_le.2 hn)))⟩
  rw [runOp_eq, deoBody_run, if_pos hn, devWrite_ok _ (bodyObeys_midPops _ hb)]
  exact settle_clear _ (faultsClear_afterBusWrite (faultsClear_midPops hc m _) _ _ _)

/-! ## EVALUATE from inside a body -/

theorem talk_refused {p : Nibble} (l : Nibble) (b : Bool) {s : State} {v : Short} {rest : List TalkReply}
    (hp : Params.noopPort p = false) (h : s.talkIn = .evaluates v :: rest) :
    talk p l b s = .error (.refuse .reentrantEvaluate) s := by
  simp [talk, State.talkReenters, hp, h]

/-- An EVALUATE is among the replies an access of width `w` takes: the first, or the second of a two-byte access. -/
def Reenters (w : Width) (s : State) : Prop :=
  ∃ (v : Short) (rest : List TalkReply), s.talkIn = .evaluates v :: rest ∨
    w = .short ∧ ∃ acts : List TalkAction, s.talkIn = .returns acts :: .evaluates v :: rest

theorem reenters_of_talkIn_eq {w : Width} {s t : State} (ht : t.talkIn = s.talkIn) (h : Reenters w s) : Reenters w t := by
  unfold Reenters
  rwa [ht]

theorem deviceRead_refused {p : Nibble} (l : Nibble) {s : State} {v : Short} {rest : List TalkReply}
    (hp : Params.noopPort p = false) (h : s.talkIn = .evaluates v :: rest) :
    deviceRead p l s = .error (.refuse .reentrantEvaluate) s :=
  bind_error (talk_refused l false hp h)

theorem deviceWrite_refused {p : Nibble} (l : Nibble) (b : Byte) {s : State} {v : Short} {rest : List TalkReply}
    (hp : Params.noopPort p = false) (h : s.talkIn = .evaluates v :: rest) :
    ∃ t, deviceWrite p l b s = .error (.refuse .reentrantEvaluate) t := by
  rw [deviceWrite_eq]
  exact ⟨_, talk_refused l true hp h⟩

/-- After the first of two calls of a live body, the second reply is the next. -/
theorem afterTalk_talkIn_of_cons {p : Nibble} (l : Nibble) (b : Bool) {s : State} {x : TalkReply} {rest : List TalkReply}
    (hp : Params.noopPort p = false) (h : s.talkIn = x :: rest) : (s.afterTalk p l b).talkIn = rest := by
  rw [afterTalk_talkIn p l b s hp, h, List.tail_cons]

theorem devRead_refused {a : Byte} {w : Width} {s : State} (hp : Params.noopPort (portOf a) = false)
    (h : Reenters w s) : ∃ t, devRead a w s = .error (.refuse .reentrantEvaluate) t := by
  obtain ⟨v, rest, h | ⟨rfl, acts, h⟩⟩ := h
  · cases w <;> exact ⟨_, bind_error (deviceRead_refused _ hp h)⟩
  · have first := deviceRead_ok (portOf a) (localOf a) s (talkReenters_of_returns h)
    have second := deviceRead_refused (localOf a + 1#4) hp (afterTalk_talkIn_of_cons (localOf a) false hp h)
    exact ⟨_, (bind_ok first).trans (bind_error second)⟩

theorem devWrite_refused {a : Byte} {w : Width} (x : Short) {s : State} (hp : Params.noopPort (portOf a) = false)
    (h : Reenters w s) : ∃ t, devWrite a w x s = .error (.refuse .reentrantEvaluate) t := by
  obtain ⟨v, rest, h | ⟨rfl, acts, h⟩⟩ := h
  · cases w with
    | byte => exact deviceWrite_refused _ _ hp h
    | short =>
      obtain ⟨t, ht⟩ := deviceWrite_refused (localOf a) (hiByte x) hp h
      exact ⟨t, bind_error ht⟩
  · have first := deviceWrite_ok (portOf a) (localOf a) (hiByte x) s (talkReenters_of_returns h)
    have next : (s.afterBusByte (portOf a) (localOf a) (hiByte x)).talkIn = .evaluates v :: rest :=
      afterTalk_talkIn_of_cons (s := s.setDev _ _) (localOf a) true hp h
    obtain ⟨t, second⟩ := deviceWrite_refused (localOf a + 1#4) (loByte x) hp next
    exact ⟨t, (bind_ok first).trans second⟩

theorem runOp_of_refused {m : Mode} {op : BitVec 5} {body : Ctx → MicroOp Unit} {s t : State} {r : Refusal}
    (h : body m.ctx (midPops m s 0) = .error (.refuse r) t) : runOp m op body s = .refused r := by
  rw [runOp_eq, h]

/-- Settles O34: the refused `talk` ends the bus access, the body and the instruction. -/
theorem evaluateFromATalkIsRefused : Obligations.EvaluateFromATalkIsRefused := by
  intro m s v rest hp h
  have hr : Reenters m.width s := ⟨v, rest, h.imp_right fun ⟨hs, ha⟩ => ⟨by rw [Mode.width, if_pos hs], ha⟩⟩
  have hmid : ∀ n, Reenters m.width (midPops m s n) := fun n => reenters_of_talkIn_eq (midPops_talkIn m s n) hr
  rw [exec_deiForm, exec_deoForm]
  refine ⟨fun hn => ?_, fun hn => ?_⟩
  · obtain ⟨t, ht⟩ := devRead_refused hp (hmid 1)
    exact runOp_of_refused ((deiBody_run m s).trans ((if_pos hn).trans (bind_error ht)))
  · obtain ⟨t, ht⟩ := devWrite_refused ((s.stack m.src).item m.width 1) hp (hmid (1 + m.width.bytes))
    exact runOp_of_refused ((deoBody_run m s).trans ((if_pos hn).trans ht))

end Sys2Proof.Machine
end

section
/-! The pixel device (spec/45_pixel_device.md): a pixel write as a change of one field of one word, the form that every
operation keeps, the dirty range, and sprites. -/

namespace Sys2Proof.Machine

/-! ## The layers of a pixel -/

/-- Where a layer of a pixel lies in its word (R251). -/
def fieldShift (layer : Layer) (x : Short) : Nat := pixelShift x + layerShift layer

theorem pixelShift_eq (x : Short) : pixelShift x = 4 * (x.toNat % 8) := rfl

theorem layerShift_cases (layer : Layer) : layerShift layer = 0 ∨ layerShift layer = 2 := by
  cases layer <;> simp [layerShift]

theorem fieldShift_le (layer : Layer) (x : Short) : fieldShift layer x + 2 ≤ 32 := by
  rw [fieldShift, pixelShift_eq]
  rcases layerShift_cases layer with h | h <;> omega

theorem extract_extract (w : PixelWord) (a b n : Nat) (h : b + n ≤ 4) :
    (w.extractLsb' a 4).extractLsb' b n = w.extractLsb' (a + b) n := by
  apply BitVec.eq_of_getLsbD_eq
  intro i hi
  simp [hi, show b + i < 4 by omega, Nat.add_assoc]

/-- A layer of a pixel is a field of the pixel's word. -/
theorem layerAt_eq (p : Ppu) (layer : Layer) (x y : Short) :
    p.layerAt layer x y = (p.word (p.index x y)).extractLsb' (fieldShift layer x) 2 := by
  cases layer <;> exact extract_extract _ _ _ _ (by omega)

/-- Two fields of one word, of different pixels or different layers, do not meet. -/
theorem fieldShift_disjoint {layer layer' : Layer} {x x' : Short} (h : layer ≠ layer' ∨ x.toNat % 8 ≠ x'.toNat % 8) :
    fieldShift layer x + 2 ≤ fieldShift layer' x' ∨ fieldShift layer' x' + 2 ≤ fieldShift layer x := by
  simp only [fieldShift, pixelShift_eq]
  cases layer <;> cases layer' <;> simp [layerShift] at h ⊢ <;> omega

/-! ## A pixel write -/

/-- The word that a pixel write in bounds stores (R252). -/
def Ppu.written (p : Ppu) (layer : Layer) (x y : Short) (c : Colour) : PixelWord :=
  replaceField (p.word (p.index x y)) (fieldShift layer x) c

theorem write_eq_storeWord {p : Ppu} {x y : Short} (h : p.inBounds x y = true) (layer : Layer) (c : Colour) :
    p.write layer x y c = p.storeWord (p.index x y) (p.written layer x y c) :=
  write_in h layer c

theorem word_write {p : Ppu} {x y : Short} (h : p.inBounds x y = true) (layer : Layer) (c : Colour) (j : Nat) :
    (p.write layer x y c).word j = if j = p.index x y then p.written layer x y c else p.word j := by
  rw [write_eq_storeWord h, word_storeWord]

/-- A write changes its word exactly if it changes its layer. -/
theorem written_eq_iff (p : Ppu) (layer : Layer) (x y : Short) (c : Colour) :
    p.written layer x y c = p.word (p.index x y) ↔ p.layerAt layer x y = c := by
  rw [layerAt_eq]
  refine ⟨fun h => ?_, replaceField_self _ _ _⟩
  rw [← h]
  exact field_replaceField_same _ c (fieldShift_le layer x)

/-- The nibble of another pixel after a write. -/
theorem nibbleAt_write_other {p : Ppu} (hs : p.stride = strideFor p.width) {x y x' y' : Short} (layer : Layer)
    (c : Colour) (h' : p.inBounds x' y' = true) (hne : x ≠ x' ∨ y ≠ y') :
    (p.write layer x y c).nibbleAt x' y' = p.nibbleAt x' y' := by
  cases h : p.inBounds x y with
  | false => rw [write_out h]
  | true =>
    rw [Ppu.nibbleAt, Ppu.nibbleAt, write_index, word_write h]
    by_cases he : p.index x' y' = p.index x y
    · rw [if_pos he, he]
      have hshift := pixelShift_ne hs h h' he.symm hne
      refine field_replaceField_other _ c ?_ ?_
      · rw [pixelShift_eq]
        omega
      · rw [fieldShift, pixelShift_eq, pixelShift_eq]
        rcases layerShift_cases layer with hl | hl <;> omega
    · rw [if_neg he]

theorem layerAt_write_same {p : Ppu} {x y : Short} (h : p.inBounds x y = true) (layer : Layer) (c : Colour) :
    (p.write layer x y c).layerAt layer x y = c := by
  rw [layerAt_eq, write_index, word_write h, if_pos rfl]
  exact field_replaceField_same _ c (fieldShift_le layer x)

theorem layerAt_write_other_layer (p : Ppu) {layer other : Layer} (x y : Short) (c : Colour) (hne : other ≠ layer) :
    (p.write layer x y c).layerAt other x y = p.layerAt other x y := by
  cases h : p.inBounds x y with
  | false => rw [write_out h]
  | true =>
    rw [layerAt_eq, layerAt_eq, write_index, word_write h, if_pos rfl]
    exact field_replaceField_other _ c (fieldShift_le other x) (fieldShift_disjoint (.inl hne))

theorem layerAt_of_nibbleAt_eq {p p' : Ppu} {x y : Short} (h : p'.nibbleAt x y = p.nibbleAt x y) (layer : Layer) :
    p'.layerAt layer x y = p.layerAt layer x y := by
  cases layer <;> simp only [Ppu.layerAt, h]

/-- Settles O50: the field written, the fields of the same pixel's other layer and of the other pixels. -/
theorem pixelWritesAreReadBack : Obligations.PixelWritesAreReadBack := fun p layer x y c ⟨hs, _⟩ =>
  ⟨fun h => write_out h layer c, fun h => ⟨layerAt_write_same h layer c,
    fun _ => layerAt_write_other_layer p x y c,
    fun _ _ h' hne => nibbleAt_write_other hs layer c h' (hne.imp Ne.symm Ne.symm)⟩⟩

/-! ## What a write does to the dirty range -/

theorem storeWord_of_eq {p : Ppu} {i : Nat} {new : PixelWord} (h : new = p.word i) : p.storeWord i new = p := if_pos h

theorem storeWord_of_ne {p : Ppu} {i : Nat} {new : PixelWord} (h : new ≠ p.word i) :
    p.storeWord i new =
      { p with
        pixels := Cells.write i new p.pixels
        redraw := true
        dirtyLo := if BitVec.ofNat 32 i < p.dirtyLo then BitVec.ofNat 32 i else p.dirtyLo
        dirtyHi := if p.dirtyHi < BitVec.ofNat 32 i then BitVec.ofNat 32 i else p.dirtyHi } := if_neg h

theorem dirtyLo_storeWord {p : Ppu} {i : Nat} {new : PixelWord} (hi : i < 4294967296) (h : new ≠ p.word i) :
    (p.storeWord i new).dirtyLo.toNat = min p.dirtyLo.toNat i := by
  rw [storeWord_of_ne h]
  simp only [BitVec.lt_def, BitVec.toNat_ofNat, Nat.mod_eq_of_lt (show i < 2 ^ 32 from hi)]
  split
  · rw [BitVec.toNat_ofNat, Nat.mod_eq_of_lt (show i < 2 ^ 32 from hi)]
    omega
  · omega

theorem dirtyHi_storeWord {p : Ppu} {i : Nat} {new : PixelWord} (hi : i < 4294967296) (h : new ≠ p.word i) :
    (p.storeWord i new).dirtyHi.toNat = max p.dirtyHi.toNat i := by
  rw [storeWord_of_ne h]
  simp only [BitVec.lt_def, BitVec.toNat_ofNat, Nat.mod_eq_of_lt (show i < 2 ^ 32 from hi)]
  split
  · rw [BitVec.toNat_ofNat, Nat.mod_eq_of_lt (show i < 2 ^ 32 from hi)]
    omega
  · omega

theorem redraw_storeWord {p : Ppu} {i : Nat} {new : PixelWord} (h : new ≠ p.word i) :
    (p.storeWord i new).redraw = true := by
  rw [storeWord_of_ne h]

theorem index_lt_two_pow {p : Ppu} (hs : p.stride = strideFor p.width) {x y : Short} (h : p.inBounds x y = true) :
    p.index x y < 4294967296 :=
  (index_lt hs h).trans (words_lt hs)

/-- A write of the value that is there. -/
theorem write_of_layerAt_eq (p : Ppu) {layer : Layer} {x y : Short} {c : Colour} (hc : p.layerAt layer x y = c) :
    p.write layer x y c = p := by
  cases h : p.inBounds x y with
  | false => exact write_out h layer c
  | true => rw [write_eq_storeWord h, storeWord_of_eq ((written_eq_iff p layer x y c).2 hc)]

/-- Settles O51: a write is a store of one word, which differs exactly if the layer does. -/
theorem pixelWritesDirtyOnlyWhatChanges : Obligations.PixelWritesDirtyOnlyWhatChanges := by
  rintro p layer x y c ⟨hs, -⟩ h
  refine ⟨write_of_layerAt_eq p, fun hc => ?_⟩
  have hne : p.written layer x y c ≠ p.word (p.index x y) := mt (written_eq_iff p layer x y c).1 hc
  have hi := index_lt_two_pow hs h
  have hword := word_write h layer c
  rw [← index_eq]
  refine ⟨?_, fun j hj => (hword j).trans (if_neg hj), ?_, ?_, ?_, write_width .., write_height .., write_stride ..⟩
  · rwa [hword, if_pos rfl]
  all_goals rw [write_eq_storeWord h]
  · exact redraw_storeWord hne
  · exact dirtyLo_storeWord hi hne
  · exact dirtyHi_storeWord hi hne

/-! ## The form of the device -/

theorem words_write (p : Ppu) (layer : Layer) (x y : Short) (c : Colour) : (p.write layer x y c).words = p.words := by
  simp [Ppu.words]

theorem canonical_storeWord {p : Ppu} {i : Nat} (new : PixelWord) (hi : i < p.words)
    (h : Cells.wfFrom p.words 0 p.pixels = true) : Cells.wfFrom p.words 0 (p.storeWord i new).pixels = true := by
  by_cases he : new = p.word i
  · rwa [storeWord_of_eq he]
  · rw [storeWord_of_ne he]
    exact Cells.wfFrom_write hi new h

/-- A padding nibble is not in the framebuffer's pixels, so a write leaves it (R53). -/
theorem paddingClear_write {p : Ppu} (hs : p.stride = strideFor p.width) (hpad : p.paddingClear) (layer : Layer)
    (x y : Short) (c : Colour) : (p.write layer x y c).paddingClear := by
  cases h : p.inBounds x y with
  | false => rwa [write_out h]
  | true =>
    intro i k hk hwidth
    rw [write_width, write_stride] at hwidth
    rw [word_write h]
    by_cases hi : i = p.index x y
    · rw [if_pos hi]
      have hmod := index_mod hs h
      have hx := ((inBounds_iff p x y).1 h).1
      rw [← hi] at hmod
      have hne : k ≠ x.toNat % 8 := by omega
      refine (field_replaceField_other _ c (by omega) ?_).trans (hi ▸ hpad i k hk hwidth)
      rw [fieldShift, pixelShift_eq]
      rcases layerShift_cases layer with hl | hl <;> omega
    · rw [if_neg hi]
      exact hpad i k hk hwidth

theorem wf_write {p : Ppu} (h : p.wf) (layer : Layer) (x y : Short) (c : Colour) : (p.write layer x y c).wf := by
  obtain ⟨hs, hcells, hpad⟩ := h
  refine ⟨by rw [write_stride, write_width, hs], ?_, paddingClear_write hs hpad layer x y c⟩
  rw [words_write]
  cases hb : p.inBounds x y with
  | false => rwa [write_out hb]
  | true =>
    rw [write_eq_storeWord hb]
    exact canonical_storeWord _ (index_lt hs hb) hcells

theorem word_resize (p : Ppu) (w h : Short) (i : Nat) : (p.resize w h).word i = 0#32 := rfl

theorem words_resize (p : Ppu) (w h : Short) : (p.resize w h).words = (w.toNat + 7) / 8 * h.toNat :=
  congrArg (· * h.toNat) (strideFor_toNat w)

theorem wf_resize (p : Ppu) (w h : Short) : (p.resize w h).wf :=
  ⟨rfl, rfl, fun i k _ _ => by rw [word_resize]; simp⟩

theorem wf_frameReset {p : Ppu} (h : p.wf) : p.frameReset.wf := h

/-! ## The dirty range -/

theorem dirtyOk_storeWord {p : Ppu} {i : Nat} (new : PixelWord) (hi : i < p.words) (hw : p.words < 4294967296)
    (h : p.dirtyOk) : (p.storeWord i new).dirtyOk := by
  by_cases he : new = p.word i
  · rwa [storeWord_of_eq he]
  · have hredraw := redraw_storeWord he
    have hlo := dirtyLo_storeWord (hi.trans hw) he
    have hhi := dirtyHi_storeWord (hi.trans hw) he
    have hwords : (p.storeWord i new).words = p.words := by simp [Ppu.words]
    obtain ⟨hclear, hset⟩ := h
    refine ⟨fun hr => absurd hr (by simp [hredraw]), fun _ hpos => ?_⟩
    rw [BitVec.le_def, hlo, hhi, hwords]
    cases hr : p.redraw with
    | false =>
      have hzero : p.dirtyHi.toNat = 0 := by rw [(hclear hr).2]; rfl
      omega
    | true =>
      obtain ⟨hle, hlt⟩ := hset hr (by omega)
      omega

theorem dirtyOk_write {p : Ppu} (hs : p.stride = strideFor p.width) (h : p.dirtyOk) (layer : Layer) (x y : Short)
    (c : Colour) : (p.write layer x y c).dirtyOk := by
  cases hb : p.inBounds x y with
  | false => rwa [write_out hb]
  | true =>
    rw [write_eq_storeWord hb]
    exact dirtyOk_storeWord _ (index_lt hs hb) (words_lt hs) h

theorem dirtyOk_frameReset (p : Ppu) : p.frameReset.dirtyOk :=
  ⟨fun _ => ⟨rfl, rfl⟩, fun h => absurd h (by simp [Ppu.frameReset])⟩

theorem stride_resize_toNat (p : Ppu) (w h : Short) : (p.resize w h).stride.toNat = (w.toNat + 7) / 8 :=
  strideFor_toNat w

/-- After a resize to a framebuffer that is not empty, all of it is dirty (R255). -/
theorem dirty_resize_of_pos (p : Ppu) {w h : Short} (hpos : 0 < (p.resize w h).words) :
    (p.resize w h).dirtyLo = 0#32 ∧ (p.resize w h).dirtyHi.toNat = (p.resize w h).words - 1 := by
  have hlt : (p.resize w h).words < 4294967296 := words_lt rfl
  have hpos' : (strideFor w).toNat * h.toNat > 0 := hpos
  refine ⟨if_pos hpos', ?_⟩
  calc (p.resize w h).dirtyHi.toNat
    _ = (BitVec.ofNat 32 ((p.resize w h).words - 1)).toNat := congrArg BitVec.toNat (if_pos hpos')
    _ = (p.resize w h).words - 1 := by rw [BitVec.toNat_ofNat]; omega

theorem dirty_resize_of_zero (p : Ppu) {w h : Short} (hz : (p.resize w h).words = 0) :
    (p.resize w h).dirtyLo = Params.dirtyEmptyLo ∧ (p.resize w h).dirtyHi = 0#32 := by
  have hz' : ¬ (strideFor w).toNat * h.toNat > 0 := Nat.not_lt.2 (Nat.le_of_eq hz)
  exact ⟨if_neg hz', if_neg hz'⟩

theorem dirtyOk_resize (p : Ppu) (w h : Short) : (p.resize w h).dirtyOk := by
  refine ⟨fun hr => absurd hr (by simp [Ppu.resize]), fun _ hpos => ?_⟩
  obtain ⟨hlo, hhi⟩ := dirty_resize_of_pos p hpos
  rw [BitVec.le_def, hlo, hhi]
  exact ⟨Nat.zero_le _, by omega⟩

/-- Settles O52: the fields of both operations, with the range that a resize leaves. -/
theorem resizeAndFrameReset : Obligations.ResizeAndFrameReset := by
  refine ⟨fun p w h => ⟨rfl, rfl, stride_resize_toNat p w h, word_resize p w h, rfl, fun hpos => ?_, fun hz => ?_⟩,
    fun _ => rfl⟩
  · rw [← words_resize p] at hpos ⊢
    exact dirty_resize_of_pos p hpos
  · rw [← words_resize p] at hz
    exact dirty_resize_of_zero p hz

/-- Settles O49: each of the sixteen columns of the table. -/
theorem blendTableClosedForms : Obligations.BlendTableClosedForms := by
  unfold Obligations.BlendTableClosedForms
  decide

/-! ## Every operation keeps the form and the range -/

theorem run_wf_dirtyOk {p : Ppu} (m : Memory) (c : PpuCmd) (h : p.wf ∧ p.dirtyOk) :
    (p.run m c).wf ∧ (p.run m c).dirtyOk :=
  run_keeps (P := fun p => p.wf ∧ p.dirtyOk)
    (fun _ layer x y c ⟨hwf, hd⟩ => ⟨wf_write hwf layer x y c, dirtyOk_write hwf.1 hd layer x y c⟩)
    (fun p w h _ => ⟨wf_resize p w h, dirtyOk_resize p w h⟩)
    (fun p ⟨hwf, _⟩ => ⟨wf_frameReset hwf, dirtyOk_frameReset p⟩) m c h

/-- Only the pixel device's own operations reach it. -/
theorem ppuInForm_keptByChanges : KeptByChanges fun s => s.ppu.wf ∧ s.ppu.dirtyOk where
  pc _ _ h := h
  stack s i S h _ := by rwa [setStack_ppu]
  dev _ _ _ h := h
  store _ _ _ h := h
  draw s c h := run_wf_dirtyOk s.mem c h
  replies _ _ _ h := h
  pending _ _ h := h
  window _ _ h := h
  answer _ _ h := h
  readOut _ _ _ h := h
  enter _ _ h := h
  leave _ h := h
  report _ _ _ _ h := h

/-- Settles O57: every step is made of changes that keep the device in form and its range right. -/
theorem stepKeepsThePixelDeviceInForm : Obligations.StepKeepsThePixelDeviceInForm :=
  fun _ _ hwf hd => ppuInForm_keptByChanges.step ⟨hwf, hd⟩

/-! ## The dirty range covers every change -/

/-- Every word of `q` that differs from `p` lies in the dirty range of `q`, with `redraw` set (R257). -/
def DirtyCovers (p q : Ppu) : Prop :=
  ∀ i : Nat, q.word i ≠ p.word i → q.redraw = true ∧ q.dirtyLo.toNat ≤ i ∧ i ≤ q.dirtyHi.toNat

theorem dirtyCovers_storeWord {p q : Ppu} {i : Nat} (new : PixelWord) (hi : i < 4294967296) (h : DirtyCovers p q) :
    DirtyCovers p (q.storeWord i new) := by
  by_cases he : new = q.word i
  · rwa [storeWord_of_eq he]
  · intro j hj
    rw [redraw_storeWord he, dirtyLo_storeWord hi he, dirtyHi_storeWord hi he]
    rw [word_storeWord] at hj
    by_cases hji : j = i
    · exact ⟨rfl, by omega, by omega⟩
    · rw [if_neg hji] at hj
      obtain ⟨-, hlo, hhi⟩ := h j hj
      exact ⟨rfl, by omega, by omega⟩

theorem dirtyCovers_write {p q : Ppu} (hs : q.stride = strideFor q.width) (h : DirtyCovers p q) (layer : Layer)
    (x y : Short) (c : Colour) : DirtyCovers p (q.write layer x y c) := by
  cases hb : q.inBounds x y with
  | false => rwa [write_out hb]
  | true =>
    rw [write_eq_storeWord hb]
    exact dirtyCovers_storeWord _ (index_lt_two_pow hs hb) h

/-- What each pixel write keeps, every operation but resize and frame_reset keeps. -/
theorem run_keeps_of_drawing {P : Ppu → Prop} (hw : ∀ p layer x y c, P p → P (p.write layer x y c)) {p : Ppu}
    (m : Memory) {c : PpuCmd} (hf : c ≠ .frameReset) (hr : ∀ w h, c ≠ .resize w h) (h : P p) : P (p.run m c) := by
  cases c with
  | read x y => exact h
  | write layer x y c => exact hw p layer x y c h
  | resize w h' => exact absurd rfl (hr w h')
  | frameReset => exact absurd rfl hf
  | blit1 q =>
    simp only [Ppu.run, Ppu.blit1]
    exact blit_keeps hw q (channel1 m q.addr) h
  | blit2 q =>
    simp only [Ppu.run, Ppu.blit2]
    exact blit_keeps hw q (channel2 m q.addr) h

theorem foldl_run_keeps_of_drawing {P : Ppu → Prop} (hw : ∀ p layer x y c, P p → P (p.write layer x y c)) (m : Memory)
    (cmds : List PpuCmd) (hc : ∀ c ∈ cmds, c ≠ .frameReset ∧ ∀ w h, c ≠ .resize w h) :
    ∀ {p : Ppu}, P p → P (cmds.foldl (fun q c => q.run m c) p) := by
  induction cmds with
  | nil => exact fun h => h
  | cons c rest ih =>
    obtain ⟨⟨hf, hr⟩, hrest⟩ := List.forall_mem_cons.1 hc
    exact fun h => ih hrest (run_keeps_of_drawing hw m hf hr h)

/-- Settles O54: the form, the range and the cover together are kept by every pixel write. -/
theorem dirtyRangeCoversEveryChange : Obligations.DirtyRangeCoversEveryChange := by
  intro p mem cmds hwf hc
  have hw : ∀ q layer x y c, (q.wf ∧ q.dirtyOk ∧ DirtyCovers p q) →
      (q.write layer x y c).wf ∧ (q.write layer x y c).dirtyOk ∧ DirtyCovers p (q.write layer x y c) :=
    fun q layer x y c ⟨hq, hd, hcov⟩ =>
      ⟨wf_write hq layer x y c, dirtyOk_write hq.1 hd layer x y c, dirtyCovers_write hq.1 hcov layer x y c⟩
  have hstart : p.frameReset.wf ∧ p.frameReset.dirtyOk ∧ DirtyCovers p p.frameReset :=
    ⟨wf_frameReset hwf, dirtyOk_frameReset p, fun _ h => absurd rfl h⟩
  obtain ⟨-, hd, hcov⟩ := foldl_run_keeps_of_drawing hw mem cmds hc hstart
  exact ⟨hcov, hd⟩

/-! ## Writes commute -/

theorem ppu_ext {p q : Ppu} (hw : p.width = q.width) (hh : p.height = q.height) (hs : p.stride = q.stride)
    (hp : p.pixels = q.pixels) (hlo : p.dirtyLo = q.dirtyLo) (hhi : p.dirtyHi = q.dirtyHi) (hr : p.redraw = q.redraw) :
    p = q := by
  cases p
  cases q
  subst hw hh hs hp hlo hhi hr
  rfl

/-- The word of a pixel after writes of one layer to two pixels. -/
theorem word_write_write {p : Ppu} {x y x' y' : Short} (h : p.inBounds x y = true) (h' : p.inBounds x' y' = true)
    (layer : Layer) (c c' : Colour) (j : Nat) :
    ((p.write layer x y c).write layer x' y' c').word j =
      if j = p.index x' y' then
        replaceField (if p.index x' y' = p.index x y then p.written layer x y c else p.word (p.index x' y'))
          (fieldShift layer x') c'
      else if j = p.index x y then p.written layer x y c else p.word j := by
  rw [word_write (by rwa [write_inBounds]), Ppu.written, write_index]
  simp only [word_write h]

theorem word_write_comm {p : Ppu} (hs : p.stride = strideFor p.width) {x y x' y' : Short} (h : p.inBounds x y = true)
    (h' : p.inBounds x' y' = true) (hne : x ≠ x' ∨ y ≠ y') (layer : Layer) (c c' : Colour) (j : Nat) :
    ((p.write layer x y c).write layer x' y' c').word j = ((p.write layer x' y' c').write layer x y c).word j := by
  rw [word_write_write h h', word_write_write h' h]
  by_cases he : p.index x y = p.index x' y'
  · rw [if_pos he.symm, if_pos he]
    unfold Ppu.written
    rw [he, replaceField_comm _ c c' (fieldShift_disjoint (.inr (pixelShift_ne hs h h' he hne)))]
    split <;> rfl
  · rw [if_neg (Ne.symm he), if_neg he]
    by_cases hj : j = p.index x y
    · rw [if_neg (fun e => he (hj.symm.trans e)), if_pos hj, if_pos hj]
      rfl
    · rw [if_neg hj, if_neg hj]
      rfl

/-- The dirty range and `redraw` after a write in bounds that changes its layer. -/
theorem dirty_write_of_ne {p : Ppu} (hs : p.stride = strideFor p.width) {layer : Layer} {x y : Short} {c : Colour}
    (h : p.inBounds x y = true) (hc : p.layerAt layer x y ≠ c) :
    (p.write layer x y c).redraw = true ∧
      (p.write layer x y c).dirtyLo.toNat = min p.dirtyLo.toNat (p.index x y) ∧
      (p.write layer x y c).dirtyHi.toNat = max p.dirtyHi.toNat (p.index x y) := by
  have hne : p.written layer x y c ≠ p.word (p.index x y) := mt (written_eq_iff p layer x y c).1 hc
  have hi := index_lt_two_pow hs h
  rw [write_eq_storeWord h]
  exact ⟨redraw_storeWord hne, dirtyLo_storeWord hi hne, dirtyHi_storeWord hi hne⟩

/-- The dirty range and `redraw` after two such writes to different pixels. -/
theorem dirty_write_write {p : Ppu} (hs : p.stride = strideFor p.width) {layer : Layer} {x y x' y' : Short}
    {c c' : Colour} (h : p.inBounds x y = true) (h' : p.inBounds x' y' = true) (hne : x ≠ x' ∨ y ≠ y')
    (hc : p.layerAt layer x y ≠ c) (hc' : p.layerAt layer x' y' ≠ c') :
    let q := (p.write layer x y c).write layer x' y' c'
    q.redraw = true ∧ q.dirtyLo.toNat = min (min p.dirtyLo.toNat (p.index x y)) (p.index x' y') ∧
      q.dirtyHi.toNat = max (max p.dirtyHi.toNat (p.index x y)) (p.index x' y') := by
  have hs' : (p.write layer x y c).stride = strideFor (p.write layer x y c).width := by
    rw [write_stride, write_width, hs]
  have hother := layerAt_of_nibbleAt_eq (nibbleAt_write_other hs layer c h' hne) layer
  obtain ⟨-, hlo, hhi⟩ := dirty_write_of_ne hs h hc
  have := dirty_write_of_ne hs' (by rwa [write_inBounds]) (hother ▸ hc')
  rwa [write_index, hlo, hhi] at this

theorem write_comm_of_out {p : Ppu} {x y : Short} (h : p.inBounds x y = false) (layer : Layer) (x' y' : Short)
    (c c' : Colour) : (p.write layer x y c).write layer x' y' c' = (p.write layer x' y' c').write layer x y c := by
  rw [write_out h]
  exact (write_out ((write_inBounds ..).trans h) layer c).symm

/-- A write of the value that is there does not show, before or after a write to another pixel. -/
theorem write_comm_of_layerAt_eq {p : Ppu} (hs : p.stride = strideFor p.width) {layer : Layer} {x y x' y' : Short}
    {c : Colour} (c' : Colour) (hne : x ≠ x' ∨ y ≠ y') (hc : p.layerAt layer x y = c) :
    (p.write layer x y c).write layer x' y' c' = (p.write layer x' y' c').write layer x y c := by
  cases h : p.inBounds x y with
  | false => exact write_comm_of_out h layer x' y' c c'
  | true =>
    rw [write_of_layerAt_eq p hc]
    have hother := nibbleAt_write_other hs layer c' h (hne.imp Ne.symm Ne.symm)
    exact (write_of_layerAt_eq _ ((layerAt_of_nibbleAt_eq hother layer).trans hc)).symm

/-- Settles O55: a write that does not show may be dropped on both sides; two that show change fields that do not meet,
and widen the dirty range by the same two indexes. -/
theorem pixelWritesCommute : Obligations.PixelWritesCommute := by
  intro p layer x y x' y' c c' hwf hne
  have hs := hwf.1
  have hne' : x' ≠ x ∨ y' ≠ y := hne.imp Ne.symm Ne.symm
  by_cases hc : p.layerAt layer x y = c
  · exact write_comm_of_layerAt_eq hs c' hne hc
  by_cases hc' : p.layerAt layer x' y' = c'
  · exact (write_comm_of_layerAt_eq hs c hne' hc').symm
  cases h : p.inBounds x y with
  | false => exact write_comm_of_out h layer x' y' c c'
  | true =>
    cases h' : p.inBounds x' y' with
    | false => exact (write_comm_of_out h' layer x y c' c).symm
    | true =>
      obtain ⟨hr, hlo, hhi⟩ := dirty_write_write hs h h' hne hc hc'
      obtain ⟨hr', hlo', hhi'⟩ := dirty_write_write hs h' h hne' hc' hc
      refine ppu_ext (by simp) (by simp) (by simp) ?_ (BitVec.eq_of_toNat_eq ?_) (BitVec.eq_of_toNat_eq ?_)
        (hr.trans hr'.symm)
      · have hwf1 := (wf_write (wf_write hwf layer x y c) layer x' y' c').2.1
        have hwf2 := (wf_write (wf_write hwf layer x' y' c') layer x y c).2.1
        rw [words_write, words_write] at hwf1 hwf2
        exact Cells.ext_of_wf _ _ 0 hwf1 hwf2 (word_write_comm hs h h' hne layer c c')
      · rw [hlo, hlo']
        omega
      · rw [hhi, hhi']
        omega

/-! ## Sprites -/

theorem spriteCoord_toNat (base : Short) (flip : Bool) (k : Nat) :
    (spriteCoord base flip k).toNat = (base.toNat + (if flip then 7 - k else k)) % 65536 := by
  rw [spriteCoord, BitVec.toNat_add, BitVec.toNat_ofNat]
  split <;> omega

/-- The pixel that a source pixel is plotted on. -/
theorem spriteLands_iff (q : Sprite) (v h : Nat) (x y : Short) :
    spriteLands q v h x y ↔ spriteCoord q.x q.flipx h = x ∧ spriteCoord q.y q.flipy v = y := by
  rw [spriteLands, ← BitVec.toNat_inj, ← BitVec.toNat_inj, spriteCoord_toNat, spriteCoord_toNat,
    eq_comm, @eq_comm _ y.toNat]

theorem spriteCoord_inj (base : Short) (flip : Bool) {k k' : Nat} (hk : k < 8) (hk' : k' < 8)
    (h : spriteCoord base flip k = spriteCoord base flip k') : k = k' := by
  have := congrArg BitVec.toNat h
  rw [spriteCoord_toNat, spriteCoord_toNat] at this
  cases flip <;> simp at this <;> omega

/-- At most one source pixel lands on a pixel. -/
theorem spriteLands_inj (q : Sprite) {v h v' h' : Nat} (hv : v < 8) (hh : h < 8) (hv' : v' < 8) (hh' : h' < 8)
    {x y : Short} (hl : spriteLands q v h x y) (hl' : spriteLands q v' h' x y) : v = v' ∧ h = h' := by
  obtain ⟨hx, hy⟩ := (spriteLands_iff q v h x y).1 hl
  obtain ⟨hx', hy'⟩ := (spriteLands_iff q v' h' x y).1 hl'
  exact ⟨spriteCoord_inj _ _ hv hv' (hy.trans hy'.symm), spriteCoord_inj _ _ hh hh' (hx.trans hx'.symm)⟩

theorem layerAt_write_other {p : Ppu} (hs : p.stride = strideFor p.width) {layer other : Layer} {x y x' y' : Short}
    (c : Colour) (h : p.inBounds x y = true) (hne : other ≠ layer ∨ ¬ (x' = x ∧ y' = y)) :
    (p.write layer x' y' c).layerAt other x y = p.layerAt other x y := by
  by_cases hxy : x' = x ∧ y' = y
  · obtain ⟨rfl, rfl⟩ := hxy
    exact layerAt_write_other_layer p x' y' c (hne.resolve_right fun hn => hn ⟨rfl, rfl⟩)
  · exact layerAt_of_nibbleAt_eq (nibbleAt_write_other hs layer c h (not_and_or.1 hxy)) other

/-- A plotted source pixel leaves every pixel it does not land on, and the other layer. -/
theorem layerAt_plot_other {p : Ppu} (hs : p.stride = strideFor p.width) {q : Sprite} (ch : Colour) {v h : Nat}
    {x y : Short} {layer : Layer} (hb : p.inBounds x y = true)
    (hne : layer ≠ q.layer ∨ ¬ spriteLands q v h x y) : (p.plot q ch v h).layerAt layer x y = p.layerAt layer x y := by
  unfold Ppu.plot
  split
  · exact layerAt_write_other hs _ hb (hne.imp_right (mt (spriteLands_iff q v h x y).2))
  · rfl

/-- A plotted source pixel sets the pixel it lands on, unless it is transparent. -/
theorem layerAt_plot_same {p : Ppu} {q : Sprite} (ch : Colour) {v h : Nat} {x y : Short} (hb : p.inBounds x y = true)
    (hl : spriteLands q v h x y) :
    (p.plot q ch v h).layerAt q.layer x y =
      if ch ≠ 0#2 ∨ Params.opaqueColour q.color then Params.blend ch q.color else p.layerAt q.layer x y := by
  obtain ⟨rfl, rfl⟩ := (spriteLands_iff q v h x y).1 hl
  unfold Ppu.plot
  split
  · exact layerAt_write_same hb q.layer _
  · rfl

/-- What a plot keeps of the device for later plots: its form, and which pixels are in bounds. -/
theorem plot_wf_inBounds {p : Ppu} (q : Sprite) (ch : Colour) (v h : Nat) {x y : Short}
    (hp : p.wf ∧ p.inBounds x y = true) : (p.plot q ch v h).wf ∧ (p.plot q ch v h).inBounds x y = true :=
  plot_keeps (P := fun p => p.wf ∧ p.inBounds x y = true)
    (fun _ layer x' y' c ⟨hwf, hb⟩ => ⟨wf_write hwf layer x' y' c, by rwa [write_inBounds]⟩) q ch v h hp

/-- The plots of a list of source pixels, each a row and a column. -/
def Ppu.plots (p : Ppu) (q : Sprite) (ch : Nat → Nat → Colour) (l : List (Nat × Nat)) : Ppu :=
  l.foldl (fun p a => p.plot q (ch a.1 a.2) a.1 a.2) p

/-- The source pixels of a sprite, row by row. -/
def spritePixels : List (Nat × Nat) := (List.range 8).flatMap fun v => (List.range 8).map fun h => (v, h)

theorem blit_eq_plots (p : Ppu) (q : Sprite) (ch : Nat → Nat → Colour) : p.blit q ch = p.plots q ch spritePixels := by
  simp only [Ppu.blit, Ppu.plots, spritePixels, List.foldl_flatMap, List.foldl_map]

theorem mem_spritePixels {a : Nat × Nat} : a ∈ spritePixels ↔ a.1 < 8 ∧ a.2 < 8 := by
  simp [spritePixels, Prod.ext_iff]

theorem nodup_spritePixels : spritePixels.Nodup := by decide

section
variable {q : Sprite} (ch : Nat → Nat → Colour) {x y : Short}

theorem layerAt_plots_other {layer : Layer} (l : List (Nat × Nat))
    (hne : ∀ a ∈ l, layer ≠ q.layer ∨ ¬ spriteLands q a.1 a.2 x y) :
    ∀ {p : Ppu}, p.wf ∧ p.inBounds x y = true → (p.plots q ch l).layerAt layer x y = p.layerAt layer x y := by
  induction l with
  | nil => exact fun _ => rfl
  | cons a rest ih =>
    intro p hp
    obtain ⟨hne, hrest⟩ := List.forall_mem_cons.1 hne
    exact (ih hrest (plot_wf_inBounds q _ a.1 a.2 hp)).trans (layerAt_plot_other hp.1.1 _ hp.2 hne)

/-- The one source pixel of a list that lands on a pixel sets it: no plot before it or after it reaches that pixel. -/
theorem layerAt_plots_same (l : List (Nat × Nat)) (hl : ∀ a ∈ l, a.1 < 8 ∧ a.2 < 8) (hnd : l.Nodup) {a : Nat × Nat}
    (ha : a ∈ l) (hlands : spriteLands q a.1 a.2 x y) :
    ∀ {p : Ppu}, p.wf ∧ p.inBounds x y = true → (p.plots q ch l).layerAt q.layer x y =
      if ch a.1 a.2 ≠ 0#2 ∨ Params.opaqueColour q.color then Params.blend (ch a.1 a.2) q.color
      else p.layerAt q.layer x y := by
  induction l with
  | nil => cases ha
  | cons b rest ih =>
    intro p hp
    obtain ⟨hb, hrest⟩ := List.forall_mem_cons.1 hl
    obtain ⟨hnot, hnd⟩ := List.nodup_cons.1 hnd
    have hp' := plot_wf_inBounds q (ch b.1 b.2) b.1 b.2 hp
    have apart : ∀ c ∈ rest, ¬ spriteLands q b.1 b.2 x y ∨ ¬ spriteLands q c.1 c.2 x y := by
      intro c hc
      by_contra hboth
      obtain ⟨h1, h2⟩ := not_or.1 hboth
      obtain ⟨e1, e2⟩ := spriteLands_inj q hb.1 hb.2 (hrest c hc).1 (hrest c hc).2 (not_not.1 h1) (not_not.1 h2)
      exact hnot (Prod.ext e1 e2 ▸ hc)
    rcases List.mem_cons.1 ha with rfl | ha
    · calc ((p.plot q (ch a.1 a.2) a.1 a.2).plots q ch rest).layerAt q.layer x y
        _ = (p.plot q (ch a.1 a.2) a.1 a.2).layerAt q.layer x y :=
          layerAt_plots_other ch rest (fun c hc => .inr ((apart c hc).resolve_left (not_not.2 hlands))) hp'
        _ = _ := layerAt_plot_same _ hp.2 hlands
    · have hb' := (apart a ha).resolve_right (not_not.2 hlands)
      refine (ih hrest hnd ha hp').trans ?_
      rw [layerAt_plot_other hp.1.1 _ hp.2 (.inr hb')]

/-- A blit paints its sprite, whatever its channels. -/
theorem blit_painted {p : Ppu} (hwf : p.wf) : Ppu.Painted q ch p (p.blit q ch) := by
  intro x y hb
  rw [blit_eq_plots]
  have hl : ∀ a ∈ spritePixels, a.1 < 8 ∧ a.2 < 8 := fun _ => mem_spritePixels.1
  refine ⟨fun v h hv hh hlands => ?_, fun hnone => ?_, fun layer hne => ?_⟩
  · exact layerAt_plots_same ch spritePixels hl nodup_spritePixels (a := (v, h)) (mem_spritePixels.2 ⟨hv, hh⟩) hlands
      ⟨hwf, hb⟩
  · exact layerAt_plots_other ch spritePixels (fun a ha => .inr (hnone _ _ (hl a ha).1 (hl a ha).2)) ⟨hwf, hb⟩
  · exact layerAt_plots_other ch spritePixels (fun _ _ => .inl hne) ⟨hwf, hb⟩

end

theorem channel2_eq (m : Memory) (addr : Short) (v h : Nat) :
    channel2 m addr v h = BitVec.ofNat 2 ((m.byte (addr + BitVec.ofNat 16 v)).getLsbD (7 - h)).toNat +
      BitVec.ofNat 2 (2 * ((m.byte (addr + BitVec.ofNat 16 (8 + v))).getLsbD (7 - h)).toNat) := by
  have haddr : addr + 8#16 + BitVec.ofNat 16 v = addr + BitVec.ofNat 16 (8 + v) := by
    rw [BitVec.add_assoc, ← BitVec.ofNat_add]
  simp only [channel2, rowPixel, haddr]
  cases (m.byte (addr + BitVec.ofNat 16 v)).getLsbD (7 - h) <;>
    cases (m.byte (addr + BitVec.ofNat 16 (8 + v))).getLsbD (7 - h) <;> rfl

/-- Settles O53: both blits paint; their channels are the bits of the rows. -/
theorem blitsPaintTheirSprite : Obligations.BlitsPaintTheirSprite := by
  intro p mem q hwf
  refine ⟨blit_painted (channel1 mem q.addr) hwf, ?_⟩
  have hch := funext fun v => funext fun h => channel2_eq mem q.addr v h
  rw [Ppu.blit2, hch]
  exact blit_painted _ hwf

end Sys2Proof.Machine
end

section
/-! Frames of whole instructions: a part of the state that no micro-op of a body reaches is as before. -/

namespace Sys2Proof.Machine

/-! ## One instruction -/

section
variable {β : Type} {f : State → β} {m : Mode} {s t : State}

theorem composes_eq (f : State → β) : Composes (fun s t => f t = f s) fun s _ t => f t = f s :=
  ⟨fun _ => rfl, fun _ _ _ h h' => h'.trans h, fun _ _ _ _ h h' => h'.trans h⟩

theorem allowsPush_eq {i : StackId} (h : ∀ s S, f (s.setStack i S) = f s) :
    AllowsPush (fun s t => f t = f s) (fun s _ t => f t = f s) i :=
  ⟨fun _ _ _ => h _ _, fun _ _ => h _ _⟩

theorem allowsStack_eq {i : StackId} (h : ∀ s S, f (s.setStack i S) = f s) :
    AllowsStack (fun s t => f t = f s) (fun s _ t => f t = f s) i :=
  { allowsPush_eq h with move := fun _ _ _ _ => h _ _ }

/-- The frame of the forms of an opcode, by what the opcode's body uses. -/
theorem exec_form_keeps {o : Opcode} (hs : ∀ s S, f (s.setStack m.src S) = f s)
    (hf : ∀ s i k b, f (takeFault i k b s) = f s)
    (hp : o = .jmp ∨ o = .jnz ∨ o = .jsr → ∀ s a, f { s with pc := a } = f s)
    (hd : o = .jsr ∨ o = .sth → ∀ s S, f (s.setStack m.dst S) = f s)
    (hm : o = .stz ∨ o = .str ∨ o = .sta → ∀ s a v w, f { s with mem := s.mem.write a v w } = f s)
    (hb : o = .dei ∨ o = .deo →
      (∀ s p d, f (s.setDev p d) = f s) ∧ ∀ s p l b, f (s.afterTalk p l b) = f s)
    (h : exec (o.form m) s = .next t) : f t = f s := by
  rw [exec_form] at h
  have hc := composes_eq f
  have hst := allowsStack_eq hs
  have hr := runs_bodyOf o m hc hst hp (fun ho => allowsPush_eq (hd ho)) hm fun ho =>
    ⟨fun s p _ _ => (hb ho).1 s p _, (hb ho).2, fun _ _ _ => rfl⟩
  exact runOp_keeps hc hst hr hf h

/-- The frame of BRK and the LIT forms. -/
theorem exec_litInstr_keeps {v : Short} (hs : ∀ s S, f (s.setStack m.src S) = f s)
    (hf : ∀ s i k b, f (takeFault i k b s) = f s) (hp : ∀ s a, f { s with pc := a } = f s)
    (he : ∀ s, f (endEvaluation s) = f s) (h : exec (litInstr m v) s = .next t) : f t = f s := by
  by_cases hm : m = ⟨false, false, false⟩
  · subst hm
    cases h
    exact he s
  · rw [exec_litInstr m v s hm] at h
    have hst := allowsStack_eq hs
    exact runOp_keeps (composes_eq f) hst (runs_litBody (composes_eq f) m hst hp _) hf h

end

theorem stack_setPc (s : State) (i : StackId) (a : Short) : State.stack { s with pc := a } i = s.stack i := by
  cases i <;> rfl

theorem stack_memWrite (s : State) (i : StackId) (a v : Short) (w : Width) :
    State.stack { s with mem := s.mem.write a v w } i = s.stack i := by
  cases i <;> rfl

theorem stack_endEvaluation (s : State) (i : StackId) : (endEvaluation s).stack i = s.stack i := by
  cases i <;> rfl

/-- Settles O45: no body but those of JSR and STH reaches the destination stack. -/
theorem destinationStackChangesOnlyInJsrAndSth : Obligations.DestinationStackChangesOnlyInJsrAndSth := by
  have hsrc : ∀ (m : Mode) (s : State) (S : Stack), (s.setStack m.src S).stack m.dst = s.stack m.dst :=
    fun m s S => stack_setStack_other s S (dst_ne_src m)
  refine ⟨fun o m s t hjsr hsth h => ?_, fun m v s t h => ?_, fun s t h => ?_⟩
  · exact exec_form_keeps (f := fun s => s.stack m.dst) (hsrc m) (fun s i k b => takeFault_stack i _ k b s)
      (fun _ s => stack_setPc s _) (fun ho => (ho.elim hjsr hsth).elim) (fun _ s => stack_memWrite s _)
      (fun _ => ⟨fun s p d => setDev_stack s p d _, fun s p l b => afterTalk_stack p l b s _⟩) h
  · exact exec_litInstr_keeps (f := fun s => s.stack m.dst) (hsrc m) (fun s i k b => takeFault_stack i _ k b s)
      (fun s => stack_setPc s _) (fun s => stack_endEvaluation s _) h
  · cases h
    exact ⟨rfl, rfl⟩

/-- Memory, the devices and the pixel device, with the inputs of device bodies. -/
def outside (s : State) : Memory × Vector Device 16 × Ppu × List TalkReply × Nat :=
  (s.mem, s.devs, s.ppu, s.talkIn, s.draws)

@[simp] theorem outside_setStack (s : State) (i : StackId) (S : Stack) : outside (s.setStack i S) = outside s := by
  simp [outside]

/-- Settles O28: what is outside the stacks is reached by the five opcodes left out only. -/
theorem nonStoringInstructionsLeaveMemoryAndDevices : Obligations.NonStoringInstructionsLeaveMemoryAndDevices := by
  intro i s t hi h
  have keeps : outside t = outside s := by
    rcases instr_cases i with rfl | ⟨m, v, -, rfl⟩ | ⟨o, m, rfl⟩
    · cases h
      rfl
    · exact exec_litInstr_keeps (fun s => outside_setStack s _) (fun _ _ _ _ => rfl) (fun _ _ => rfl) (fun _ => rfl) h
    · obtain ⟨hstz, hstr, hsta, hdei, hdeo⟩ := hi m
      refine exec_form_keeps (fun s => outside_setStack s _) (fun _ _ _ _ => rfl) (fun _ _ _ => rfl)
        (fun _ s => outside_setStack s _) ?_ ?_ h
      · rintro (rfl | rfl | rfl)
        · exact absurd rfl hstz
        · exact absurd rfl hstr
        · exact absurd rfl hsta
      · rintro (rfl | rfl)
        · exact absurd rfl hdei
        · exact absurd rfl hdeo
  simp only [outside, Prod.mk.injEq] at keeps
  obtain ⟨hmem, hdevs, hppu, htalk, hdraws⟩ := keeps
  exact ⟨fun a => by rw [hmem], hmem, hdevs, hppu, htalk, hdraws⟩

/-! ## One running step -/

theorem byte_pc_of_decode {s : State} {i : Instr} {rest l : List Byte} {b : Byte}
    (hd : decode (fetchBytes s) = .ok (i, rest)) (he : encode i = b :: l) : s.mem.byte s.pc = b := by
  have hbytes := encode_of_decode hd
  rw [he] at hbytes
  exact (List.cons.inj hbytes).1

/-- What a running step does, by the opcode byte at pc: it ends the evaluation, or it runs a LIT form or the body of an
opcode from the state past that byte (R145, R146, R150). -/
theorem step_running_cases {s : State} (hr : s.running = true) :
    (s.mem.byte s.pc = 0x00#8 ∧ step s = .next (endEvaluation { s with pc := s.pc + 1#16 })) ∨
    (∃ (m : Mode) (v : Short), m ≠ ⟨false, false, false⟩ ∧ s.mem.byte s.pc = m.opcodeByte 0#5 ∧
      step s = exec (litInstr m v) { s with pc := s.pc + 1#16 }) ∨
    ∃ (o : Opcode) (m : Mode), s.mem.byte s.pc = m.opcodeByte o.index ∧
      step s = exec (o.form m) { s with pc := s.pc + 1#16 } := by
  obtain ⟨i, rest, hd, hstep⟩ := step_running hr
  rcases instr_cases i with rfl | ⟨m, v, hm, rfl⟩ | ⟨o, m, rfl⟩
  · exact .inl ⟨byte_pc_of_decode hd rfl, hstep⟩
  · exact .inr (.inl ⟨m, v, hm, byte_pc_of_decode hd (encode_litInstr hm v), hstep⟩)
  · exact .inr (.inr ⟨o, m, byte_pc_of_decode hd (encode_form o m), hstep⟩)

/-- What only the host touches, and the pc policy. -/
def hostSide (s : State) : List HostCmd × Bool × Option Nibble × FaultPcPolicy :=
  (s.hostIn, s.loadWindow, s.nibble, s.pcPolicy)

@[simp] theorem hostSide_setStack (s : State) (i : StackId) (S : Stack) : hostSide (s.setStack i S) = hostSide s := by
  simp [hostSide]

@[simp] theorem hostSide_afterTalk (p l : Nibble) (b : Bool) (s : State) : hostSide (s.afterTalk p l b) = hostSide s := by
  simp [hostSide]

/-- Settles O46: no micro-op reaches what the host touches. -/
theorem runningStepsLeaveTheHostAlone : Obligations.RunningStepsLeaveTheHostAlone := by
  intro s t hr h
  have keeps : hostSide t = hostSide { s with pc := s.pc + 1#16 } := by
    rcases step_running_cases hr with ⟨-, hx⟩ | ⟨m, v, -, -, hx⟩ | ⟨o, m, -, hx⟩ <;> rw [hx] at h
    · cases h
      rfl
    · exact exec_litInstr_keeps (fun s => hostSide_setStack s _) (fun _ _ _ _ => rfl) (fun _ _ => rfl) (fun _ => rfl) h
    · exact exec_form_keeps (fun s => hostSide_setStack s _) (fun _ _ _ _ => rfl) (fun _ _ _ => rfl)
        (fun _ s => hostSide_setStack s _) (fun _ _ _ _ _ => rfl)
        (fun _ => ⟨fun _ _ _ => rfl, fun s p l b => hostSide_afterTalk p l b s⟩) h
  simpa [hostSide] using keeps

end Sys2Proof.Machine
end

section
/-! How a running step ends (spec/40_evaluator.md R144, R151, spec/60_exceptions.md R296): until a fault is raised the
fault fields, the answer and the report stand; a raised fault is the one fault of the step, and pc is then still past the
opcode byte. -/

namespace Sys2Proof.Machine

/-! ## What stands while no fault is raised -/

/-- The evaluation's answer and report, and the fault fields, are as before. -/
structure Unreported (s t : State) : Prop where
  running : t.running = s.running
  result : t.result = s.result
  lastFault : t.lastFault = s.lastFault
  pcPolicy : t.pcPolicy = s.pcPolicy
  fault : ∀ i, (t.stack i).fault = (s.stack i).fault

/-- And so is pc. -/
def Steady (s t : State) : Prop := Unreported s t ∧ t.pc = s.pc

/-- Where a micro-op raises a fault: in a state that was steady so far, one fault is recorded. -/
def Raised (s : State) : Stop → State → Prop
  | .fault, t => ∃ (u : State) (i : StackId) (k : FaultKind), Steady s u ∧ t = u.setStack i ((u.stack i).withFault k)
  | .refuse _, _ => True

variable {s t u : State}

theorem Unreported.refl (s : State) : Unreported s s := ⟨rfl, rfl, rfl, rfl, fun _ => rfl⟩

theorem Unreported.trans (h : Unreported s t) (h' : Unreported t u) : Unreported s u :=
  ⟨h'.running.trans h.running, h'.result.trans h.result, h'.lastFault.trans h.lastFault, h'.pcPolicy.trans h.pcPolicy,
    fun i => (h'.fault i).trans (h.fault i)⟩

theorem Steady.trans (h : Steady s t) (h' : Steady t u) : Steady s u := ⟨h.1.trans h'.1, h'.2.trans h.2⟩

theorem Steady.raised (h : Steady s t) {e : Stop} (h' : Raised t e u) : Raised s e u := by
  cases e with
  | refuse r => trivial
  | fault =>
    obtain ⟨v, i, k, hv, rfl⟩ := h'
    exact ⟨v, i, k, h.trans hv, rfl⟩

theorem steady_composes : Composes Steady Raised :=
  ⟨fun s => ⟨.refl s, rfl⟩, fun _ _ _ => Steady.trans, fun _ _ _ _ h h' => h.raised h'⟩

theorem steady_setStack (s : State) {i : StackId} {S : Stack} (hS : S.fault = (s.stack i).fault) :
    Steady s (s.setStack i S) := by
  refine ⟨⟨setStack_running .., setStack_result .., setStack_lastFault .., setStack_pcPolicy .., fun j => ?_⟩,
    setStack_pc ..⟩
  by_cases hj : j = i
  · rw [hj, stack_setStack_same, hS]
  · rw [stack_setStack_other s S hj]

theorem steady_allowsStack (i : StackId) : AllowsStack Steady Raised i where
  put s _ _ := steady_setStack s rfl
  raises s k := ⟨s, i, k, steady_composes.refl s, rfl⟩
  move s _ _ hf := steady_setStack s hf

theorem steady_allowsBus : AllowsBus Steady Raised where
  store s p _ _ := ⟨⟨rfl, rfl, rfl, rfl, fun i => by rw [setDev_stack]⟩, rfl⟩
  talks s p l b := ⟨⟨afterTalk_running .., afterTalk_result .., afterTalk_lastFault .., afterTalk_pcPolicy ..,
    fun i => by rw [afterTalk_stack]⟩, afterTalk_pc ..⟩
  refuses _ _ _ := trivial

theorem steady_memWrite (s : State) (a v : Short) (w : Width) : Steady s { s with mem := s.mem.write a v w } :=
  ⟨⟨rfl, rfl, rfl, rfl, fun i => by rw [stack_memWrite]⟩, rfl⟩

theorem unreported_setPc (s : State) (a : Short) : Unreported s { s with pc := a } :=
  ⟨rfl, rfl, rfl, rfl, fun i => by rw [stack_setPc]⟩

/-! ## Bodies: pc moves last -/

theorem runs_mono {α : Type} {R R' : State → State → Prop} {E : State → Stop → State → Prop} {x : MicroOp α}
    (h : ∀ s t, R s t → R' s t) (hx : Runs R E x) : Runs R' E x := by
  intro s
  have := hx s
  cases hs : x s with
  | ok a t => rw [hs] at this; exact h s t this
  | error e t => rw [hs] at this; exact this

/-- A last micro-op may also move pc. -/
theorem runs_bind_last {α β : Type} {x : MicroOp α} {f : α → MicroOp β} (hx : Runs Steady Raised x)
    (hf : ∀ a, Runs Unreported Raised (f a)) : Runs Unreported Raised (x >>= f) := by
  intro s
  have h := hx s
  cases hs : x s with
  | error e t => rw [bind_error hs]; rw [hs] at h; exact h
  | ok a t =>
    rw [bind_ok hs]
    rw [hs] at h
    have h' := hf a t
    cases ht : f a t with
    | error e u => rw [ht] at h'; exact Steady.raised h h'
    | ok b u => rw [ht] at h'; exact h.1.trans h'

theorem runs_unreported_setPc (a : Short) : Runs Unreported Raised (setPc a) := fun s => unreported_setPc s a

theorem runs_unreported_litBody (m : Mode) (v : Short) : Runs Unreported Raised (litBody v m.ctx) :=
  runs_bind_last (runs_push steady_composes (steady_allowsStack _).toAllowsPush _ _) fun _ =>
    runs_bind_last (runs_getPc steady_composes) fun _ => runs_unreported_setPc _

theorem runs_unreported_bodyOf (o : Opcode) (m : Mode) : Runs Unreported Raised (bodyOf o m.ctx) := by
  have popW : Runs Steady Raised (popW m.ctx) := runs_pop steady_composes (steady_allowsStack _) _
  have pop8 : Runs Steady Raised (pop m.ctx .byte) := runs_pop steady_composes (steady_allowsStack _) _
  have link : ∀ a, Runs Steady Raised (push m.ctx.dst .short a) :=
    runs_push steady_composes (steady_allowsStack _).toAllowsPush _
  have pc := runs_getPc steady_composes
  by_cases hj : o = .jmp ∨ o = .jnz ∨ o = .jsr
  · rcases hj with rfl | rfl | rfl
    · exact runs_bind_last popW fun _ => runs_bind_last pc fun _ => runs_unreported_setPc _
    · refine runs_bind_last popW fun _ => runs_bind_last pop8 fun c => runs_bind_last pc fun _ => ?_
      split
      · exact runs_unreported_setPc _
      · exact fun s => .refl s
    · exact runs_bind_last popW fun _ => runs_bind_last pc fun _ => runs_bind_last (link _) fun _ =>
        runs_unreported_setPc _
  · exact runs_mono (fun _ _ h => h.1) (runs_bodyOf o m steady_composes (steady_allowsStack _) (fun h => absurd h hj)
      (fun _ => (steady_allowsStack _).toAllowsPush) (fun _ => steady_memWrite) fun _ => steady_allowsBus)

/-! ## Instructions and steps -/

theorem faultsClear_of_unreported (h : Unreported s t) (hc : s.faultsClear) : t.faultsClear :=
  ⟨(h.fault .working).trans hc.1, (h.fault .ret).trans hc.2⟩

/-- `t` is where fault `k` of stack `i`, raised by the instruction with byte `op` in a state `u` like `s`, was taken. -/
def FaultTaken (op : Byte) (s t : State) : Prop :=
  ∃ (u : State) (i : StackId) (k : FaultKind), Steady s u ∧ t = takeFault i k op (u.setStack i ((u.stack i).withFault k))

theorem runOp_ends {m : Mode} {op : BitVec 5} {body : Ctx → MicroOp Unit}
    (hbody : Runs Unreported Raised (body m.ctx)) (hc : s.faultsClear) (h : runOp m op body s = .next t) :
    Unreported s t ∨ FaultTaken (m.opcodeByte op) s t := by
  have hbegin := beginStep_keeps steady_composes m (steady_allowsStack _) s
  obtain ⟨u, hu | hu, hset⟩ := runOp_next hbody h
  · have hsu := hbegin.1.trans hu
    rw [settle_clear _ (faultsClear_of_unreported hsu hc)] at hset
    cases hset
    exact .inl hsu
  · obtain ⟨v, i, k, hv, rfl⟩ := hu
    have hsv := hbegin.trans hv
    rw [settle_withFault _ _ _ _ (faultsClear_of_unreported hsv.1 hc)] at hset
    cases hset
    exact .inr ⟨v, i, k, hsv, rfl⟩

/-- How a running step ends: the evaluation goes on, or ends at a BRK byte, or by a fault (R144, R146, R151). -/
theorem step_running_ends (hr : s.running = true) (hc : s.faultsClear) (h : step s = .next t) :
    (s.mem.byte s.pc = 0x00#8 ∧ t = endEvaluation { s with pc := s.pc + 1#16 }) ∨
    (s.mem.byte s.pc ≠ 0x00#8 ∧ (Unreported s t ∨ FaultTaken (s.mem.byte s.pc) { s with pc := s.pc + 1#16 } t)) := by
  have hc' : State.faultsClear { s with pc := s.pc + 1#16 } := hc
  have back : Unreported s { s with pc := s.pc + 1#16 } := unreported_setPc s _
  rcases step_running_cases hr with ⟨hb, hx⟩ | ⟨m, v, hm, hb, hx⟩ | ⟨o, m, hb, hx⟩ <;> rw [hx] at h <;> rw [hb]
  · cases h
    exact .inl ⟨rfl, rfl⟩
  · rw [exec_litInstr _ _ _ hm] at h
    refine .inr ⟨fun hz => hm ((opcodeByte_eq_zero_iff m _).1 hz).1, ?_⟩
    exact (runOp_ends (runs_unreported_litBody m _) hc' h).imp_left back.trans
  · rw [exec_form] at h
    refine .inr ⟨opcodeByte_index_ne_zero o m, ?_⟩
    exact (runOp_ends (runs_unreported_bodyOf o m) hc' h).imp_left back.trans

/-- Settles O43: the three ends of a running step, with what stands at each. -/
theorem evaluationsEndOnlyAtBrkOrFault : Obligations.EvaluationsEndOnlyAtBrkOrFault := by
  intro s t hr hc h
  rcases step_running_ends hr hc h with ⟨hb, rfl⟩ | ⟨hb, hu | ⟨u, i, k, hu, rfl⟩⟩
  · exact .inr (.inl ⟨rfl, hc, hb, rfl, rfl, rfl⟩)
  · exact .inl ⟨hu.running.trans hr, faultsClear_of_unreported hu hc, hu.result, hu.lastFault⟩
  · have hpc : (u.setStack i ((u.stack i).withFault k)).pc = s.pc + 1#16 := (setStack_pc ..).trans hu.2
    have hpolicy : (u.setStack i ((u.stack i).withFault k)).pcPolicy = s.pcPolicy :=
      (setStack_pcPolicy ..).trans hu.1.pcPolicy
    refine .inr (.inr ⟨rfl, hb, rfl, k, i, ?_, ?_, ?_⟩)
    · rw [takeFault_lastFault, hpc]
    · rw [takeFault_stack, stack_setStack_same]
      rfl
    · cases hp : s.pcPolicy with
      | leave => rw [takeFault_pc_leave _ _ _ _ (hpolicy.trans hp), hpc]
      | zero => rw [takeFault_pc_zero _ _ _ _ (hpolicy.trans hp)]

/-! ## At most one fault, and none while an evaluation runs -/

theorem faultTaken_one_fault {op : Byte} (hc : s.faultsClear) (h : FaultTaken op s t) :
    t.running = false ∧ (t.wst.fault = none ∨ t.rst.fault = none) := by
  obtain ⟨u, i, k, hu, rfl⟩ := h
  obtain ⟨hw, hr⟩ := faultsClear_of_unreported hu.1 hc
  cases i
  · exact ⟨rfl, .inr hr⟩
  · exact ⟨rfl, .inl hw⟩

theorem faultsOk_of_clear (hc : s.faultsClear) (hres : s.running = true → s.result = none) : s.faultsOk :=
  ⟨.inl hc.1, fun hr => ⟨hc, hres hr⟩⟩

theorem faultsOk_of_ended (hr : s.running = false) (h : s.wst.fault = none ∨ s.rst.fault = none) : s.faultsOk :=
  ⟨h, fun hr' => absurd hr' (by simp [hr])⟩

/-- What a host transaction does with the stacks and the evaluation: it enters one, or leaves all of it. -/
theorem hostStep_cases {c : HostCmd} (h : hostStep c s = .next t) :
    (∃ v, t = { enterEvaluation v s with loadWindow := false }) ∨
      t.wst = s.wst ∧ t.rst = s.rst ∧ t.running = s.running := by
  cases c with
  | load rom =>
    unfold hostStep hostLoad at h
    dsimp only at h
    split at h
    · split at h
      · cases h
        exact .inr ⟨rfl, rfl, rfl⟩
      · cases h
    · cases h
  | evaluate v =>
    cases h
    by_cases hv : v = 0x0000#16 ∨ s.halted
    · rw [evaluate, if_pos hv]
      exact .inr ⟨rfl, rfl, rfl⟩
    · rw [evaluate, if_neg hv]
      exact .inl ⟨v, rfl⟩
  | pokeMem a v =>
    cases h
    exact .inr ⟨rfl, rfl, rfl⟩
  | pokeDev p l v =>
    cases h
    exact .inr ⟨rfl, rfl, rfl⟩
  | ppu c =>
    cases h
    cases c with
    | read x y =>
      simp only [hostPpu, State.readPixel]
      split <;> exact .inr ⟨rfl, rfl, rfl⟩
    | _ => exact .inr ⟨rfl, rfl, rfl⟩

theorem step_idle_cons {c : HostCmd} {rest : List HostCmd} (hr : s.running = false) (hin : s.hostIn = c :: rest) :
    step s = hostStep c { s with hostIn := rest } := by
  simp [step, idleStep, hr, hin]

theorem step_idle_nil (hr : s.running = false) (hin : s.hostIn = []) : step s = .next s := by
  simp [step, idleStep, hr, hin]

/-- Settles O58: a running step raises one fault at most and then ends the evaluation; the host enters one only with the
fields clear. -/
theorem stepKeepsFaultsAndAnswersApart : Obligations.StepKeepsFaultsAndAnswersApart := by
  rintro s t ⟨hone, hrun⟩ h
  cases hr : s.running with
  | true =>
    obtain ⟨hc, hres⟩ := hrun hr
    rcases step_running_ends hr hc h with ⟨-, rfl⟩ | ⟨-, hu | hf⟩
    · exact faultsOk_of_ended rfl (.inl hc.1)
    · exact faultsOk_of_clear (faultsClear_of_unreported hu hc) fun _ => hu.result.trans hres
    · obtain ⟨hend, hfault⟩ := faultTaken_one_fault (s := { s with pc := s.pc + 1#16 }) hc hf
      exact faultsOk_of_ended hend hfault
  | false =>
    cases hin : s.hostIn with
    | nil =>
      rw [step_idle_nil hr hin] at h
      cases h
      exact ⟨hone, hrun⟩
    | cons c rest =>
      rw [step_idle_cons hr hin] at h
      rcases hostStep_cases h with ⟨v, rfl⟩ | ⟨hw, hrst, hrunning⟩
      · exact faultsOk_of_clear ⟨rfl, rfl⟩ fun _ => rfl
      · exact faultsOk_of_ended (hrunning.trans hr) (by rw [hw, hrst]; exact hone)

end Sys2Proof.Machine
end

section
/-! How a step can stop (spec/40_evaluator.md R157, spec/70_reset_and_hazards.md R333): never with a fault, and refused
outside the contract only. -/

namespace Sys2Proof.Machine

/-! ## Refusals of instructions -/

/-- No reply was added to the listed ones. -/
def RepliesLeft (s t : State) : Prop := t.talkIn ⊆ s.talkIn

/-- The one refusal of a micro-op: with an EVALUATE listed, where `bus` allows the device bus. -/
def RefusesReentry (bus : Prop) (s : State) (e : Stop) (_ : State) : Prop :=
  ∀ r, e = .refuse r → bus ∧ r = .reentrantEvaluate ∧ ∃ v : Short, .evaluates v ∈ s.talkIn

theorem repliesLeft_of_eq {s t : State} (h : t.talkIn = s.talkIn) : RepliesLeft s t := by
  rw [RepliesLeft, h]
  exact List.Subset.refl _

theorem refusesReentry_composes (bus : Prop) : Composes RepliesLeft (RefusesReentry bus) where
  refl _ := List.Subset.refl _
  trans _ _ _ h h' := List.Subset.trans h' h
  stop _ _ _ _ h h' r hr :=
    let ⟨hbus, hre, v, hv⟩ := h' r hr
    ⟨hbus, hre, v, h hv⟩

theorem refusesReentry_allowsStack (bus : Prop) (i : StackId) : AllowsStack RepliesLeft (RefusesReentry bus) i where
  put _ _ _ := repliesLeft_of_eq (setStack_talkIn ..)
  raises _ _ _ hr := by cases hr
  move _ _ _ _ := repliesLeft_of_eq (setStack_talkIn ..)

theorem repliesLeft_afterTalk (p l : Nibble) (b : Bool) (s : State) : RepliesLeft s (s.afterTalk p l b) := by
  cases hp : Params.noopPort p with
  | true => exact repliesLeft_of_eq (by rw [afterTalk_noop p l b s hp])
  | false =>
    rw [RepliesLeft, afterTalk_talkIn p l b s hp]
    exact List.tail_subset _

theorem evaluates_mem_of_talkReenters {p : Nibble} {s : State} (h : s.talkReenters p = true) :
    ∃ v : Short, .evaluates v ∈ s.talkIn := by
  unfold State.talkReenters at h
  cases hin : s.talkIn with
  | nil => simp [hin] at h
  | cons x rest =>
    cases x with
    | returns acts => simp [hin] at h
    | evaluates v => exact ⟨v, List.mem_cons_self⟩

theorem refusesReentry_allowsBus {bus : Prop} (hbus : bus) : AllowsBus RepliesLeft (RefusesReentry bus) where
  store _ _ _ _ := List.Subset.refl _
  talks s p l b := repliesLeft_afterTalk p l b s
  refuses s p h r hr := by
    cases hr
    exact ⟨hbus, rfl, evaluates_mem_of_talkReenters h⟩

theorem runs_litBody_refuses (m : Mode) (v : Short) : Runs RepliesLeft (RefusesReentry False) (litBody v m.ctx) :=
  runs_litBody (refusesReentry_composes _) m (refusesReentry_allowsStack _ _) (fun _ _ => List.Subset.refl _) v

theorem runs_bodyOf_refuses (o : Opcode) (m : Mode) :
    Runs RepliesLeft (RefusesReentry (o = .dei ∨ o = .deo)) (bodyOf o m.ctx) :=
  runs_bodyOf o m (refusesReentry_composes _) (refusesReentry_allowsStack _ _) (fun _ _ _ => List.Subset.refl _)
    (fun _ => (refusesReentry_allowsStack _ _).toAllowsPush) (fun _ _ _ _ _ => List.Subset.refl _)
    fun ho => refusesReentry_allowsBus ho

/-- An instruction answers a next state, or its body refused (R150, R151). -/
theorem runOp_total (m : Mode) (op : BitVec 5) (body : Ctx → MicroOp Unit) (s : State) :
    (∃ t, runOp m op body s = .next t) ∨
      ∃ r u, body m.ctx (midPops m s 0) = .error (.refuse r) u ∧ runOp m op body s = .refused r := by
  rw [runOp_eq]
  cases body m.ctx (midPops m s 0) with
  | ok _ u => exact .inl (settle_total _ u)
  | error e u =>
    cases e with
    | fault => exact .inl (settle_total _ u)
    | refuse r => exact .inr ⟨r, u, rfl, rfl⟩

theorem runOp_refused {bus : Prop} {m : Mode} {op : BitVec 5} {body : Ctx → MicroOp Unit} {s : State} {r : Refusal}
    (hbody : Runs RepliesLeft (RefusesReentry bus) (body m.ctx)) (h : runOp m op body s = .refused r) :
    bus ∧ r = .reentrantEvaluate ∧ ∃ v : Short, .evaluates v ∈ s.talkIn := by
  rcases runOp_total m op body s with ⟨t, ht⟩ | ⟨r', u, hu, hr⟩
  · cases ht.symm.trans h
  · cases hr.symm.trans h
    have hb := hbody (midPops m s 0)
    rw [hu] at hb
    rw [← midPops_talkIn m s 0]
    exact hb r rfl

theorem runOp_ne_fault (m : Mode) (op : BitVec 5) (body : Ctx → MicroOp Unit) (s : State) (f : Fault) :
    runOp m op body s ≠ .fault f := by
  intro h
  rcases runOp_total m op body s with ⟨t, ht⟩ | ⟨r, u, -, hr⟩
  · cases ht.symm.trans h
  · cases hr.symm.trans h

/-! ## Steps -/

theorem hostLoad_of_fits {s : State} {rom : List Byte} (hw : s.loadWindow = true) (hf : romFits rom = true) :
    hostLoad rom s =
      .next { s with mem := s.mem.setBytes (BitVec.ofNat 16 Params.programBase) rom, loadWindow := false } :=
  (if_pos hw).trans (if_pos hf)

/-- Only a LOAD can be refused between evaluations (R333). -/
theorem hostStep_total {c : HostCmd} {s : State} : (∃ t, hostStep c s = .next t) ∨ ∃ rom, c = .load rom ∧
    ((hostStep c s = .refused .loadOutsideWindow ∧ s.loadWindow = false) ∨
      (hostStep c s = .refused .romTooLong ∧ romFits rom = false)) := by
  cases c with
  | load rom =>
    cases hw : s.loadWindow with
    | false => exact .inr ⟨rom, rfl, .inl ⟨by simp [hostStep, hostLoad, hw], rfl⟩⟩
    | true =>
      cases hf : romFits rom with
      | false => exact .inr ⟨rom, rfl, .inr ⟨by simp [hostStep, hostLoad, hw, hf], hf⟩⟩
      | true => exact .inl ⟨_, hostLoad_of_fits hw hf⟩
  | evaluate v => exact .inl ⟨_, rfl⟩
  | pokeMem a v => exact .inl ⟨_, rfl⟩
  | pokeDev p l v => exact .inl ⟨_, rfl⟩
  | ppu c => exact .inl ⟨_, rfl⟩

theorem romFits_eq_false_iff (rom : List Byte) : romFits rom = false ↔ 65280 < rom.length := by
  rw [romFits, decide_eq_false_iff_not, Nat.not_le]
  rfl

theorem step_ne_fault (s : State) (f : Fault) : step s ≠ .fault f := by
  intro h
  cases hr : s.running with
  | true =>
    rcases step_running_cases hr with ⟨-, hx⟩ | ⟨m, v, hm, -, hx⟩ | ⟨o, m, -, hx⟩ <;> rw [hx] at h
    · cases h
    · rw [exec_litInstr _ _ _ hm] at h
      exact runOp_ne_fault _ _ _ _ f h
    · rw [exec_form] at h
      exact runOp_ne_fault _ _ _ _ f h
  | false =>
    cases hin : s.hostIn with
    | nil =>
      rw [step_idle_nil hr hin] at h
      cases h
    | cons c rest =>
      rw [step_idle_cons hr hin] at h
      rcases hostStep_total (c := c) (s := { s with hostIn := rest }) with
        ⟨t, ht⟩ | ⟨rom, -, ⟨ht, -⟩ | ⟨ht, -⟩⟩ <;> (rw [ht] at h; cases h)

theorem step_running_refused {s : State} {r : Refusal} (hr : s.running = true) (h : step s = .refused r) :
    r = .reentrantEvaluate ∧
      ((s.mem.byte s.pc).toNat % 32 = 0x16 ∨ (s.mem.byte s.pc).toNat % 32 = 0x17) ∧
      ∃ v : Short, .evaluates v ∈ s.talkIn := by
  rcases step_running_cases hr with ⟨-, hx⟩ | ⟨m, v, hm, -, hx⟩ | ⟨o, m, hb, hx⟩ <;> rw [hx] at h
  · cases h
  · rw [exec_litInstr _ _ _ hm] at h
    exact (runOp_refused (runs_litBody_refuses m _) h).1.elim
  · rw [exec_form] at h
    obtain ⟨ho, hre, hv⟩ := runOp_refused (runs_bodyOf_refuses o m) h
    refine ⟨hre, ?_, hv⟩
    rw [hb, opcodeByte_mod]
    exact ho.imp (fun e => by rw [e]; rfl) fun e => by rw [e]; rfl

/-- Settles O47: a running step is refused by its bus access only, an idle one by its LOAD only. -/
theorem stepsStopOnlyOutsideTheContract : Obligations.StepsStopOnlyOutsideTheContract := by
  refine ⟨step_ne_fault, fun s r h => ?_⟩
  cases hr : s.running with
  | true =>
    obtain ⟨hre, hbyte, hv⟩ := step_running_refused hr h
    exact .inl ⟨hre, rfl, hbyte, hv⟩
  | false =>
    cases hin : s.hostIn with
    | nil =>
      rw [step_idle_nil hr hin] at h
      cases h
    | cons c rest =>
      rw [step_idle_cons hr hin] at h
      rcases hostStep_total (c := c) (s := { s with hostIn := rest }) with
        ⟨t, ht⟩ | ⟨rom, rfl, ⟨ht, hw⟩ | ⟨ht, hf⟩⟩ <;> (rw [ht] at h; cases h)
      · exact .inr ⟨rfl, rom, rest, rfl, .inl ⟨rfl, hw⟩⟩
      · exact .inr ⟨rfl, rom, rest, rfl, .inr ⟨rfl, (romFits_eq_false_iff rom).1 hf⟩⟩

end Sys2Proof.Machine
end

section
/-! Reset, LOAD and the host's transactions (spec/00_scope.md R7, spec/40_evaluator.md R141 to R143,
spec/70_reset_and_hazards.md), and half-done stack accesses (spec/20_memory.md R81). -/

namespace Sys2Proof.Machine

/-! ## Bytes stored in a row -/

/-- Every byte after a list of at most 65536 bytes was stored from `a` on, with 16-bit wrap. -/
theorem byte_setBytes (l : List Byte) : ∀ (m : Memory) (a b : Short), l.length ≤ 65536 →
    Memory.byte (Memory.setBytes m a l) b =
      if (b - a).toNat < l.length then l.getD (b - a).toNat 0x00#8 else Memory.byte m b := by
  induction l with
  | nil => exact fun _ _ _ _ => rfl
  | cons v rest ih =>
    intro m a b hlen
    rw [List.length_cons] at hlen ⊢
    rw [Memory.setBytes, ih _ _ _ (by omega), Memory.byte_setByte]
    by_cases hb : b = a
    · subst hb
      have hzero : (b - b).toNat = 0 := by simp
      have hlast : (b - (b + 1)).toNat = 65535 := by bv_omega
      rw [hzero, hlast, if_neg (by omega), if_pos rfl, if_pos (by omega), List.getD_cons_zero]
    · have hsucc : (b - a).toNat = (b - (a + 1)).toNat + 1 := by bv_omega
      simp only [hsucc, if_neg hb, List.getD_cons_succ, Nat.add_lt_add_iff_right]

theorem byte_nil (a : Short) : Memory.byte [] a = 0x00#8 := rfl

/-- A byte of the image of a ROM at the program base (R332). -/
theorem byte_romImage {rom : List Byte} (h : rom.length ≤ 65280) (a : Short) :
    Memory.byte (Memory.setBytes [] (BitVec.ofNat 16 Params.programBase) rom) a =
      if 0x0100 ≤ a.toNat then rom.getD (a.toNat - 0x0100) 0x00#8 else 0x00#8 := by
  have hbase : BitVec.ofNat 16 Params.programBase = 0x0100#16 := rfl
  rw [byte_setBytes rom _ _ _ (by omega), byte_nil, hbase]
  by_cases ha : 0x0100 ≤ a.toNat
  · have hsub : (a - 0x0100#16).toNat = a.toNat - 0x0100 := by bv_omega
    rw [if_pos ha, hsub]
    split
    · rfl
    · next hn => rw [List.getD_eq_default _ _ (by omega)]
  · have hbelow : 65280 ≤ (a - 0x0100#16).toNat := by bv_omega
    rw [if_neg ha, if_neg (by omega)]

/-! ## Reset -/

theorem reset_stack (i : StackId) : State.reset.stack i = Stack.reset := by cases i <;> rfl

theorem reset_dat (k : Fin 256) : Stack.reset.dat[k] = 0x00#8 := Vector.getElem_replicate ..

theorem reset_dev (p : Nibble) : State.reset.dev p = Device.reset := Vector.getElem_replicate ..

theorem reset_get (l : Nibble) : Device.reset.get l = 0x00#8 := Vector.getElem_replicate ..

theorem step_load {rom : List Byte} (h : rom.length ≤ 65280) :
    step { State.reset with hostIn := [.load rom] } = .next { State.reset with
      mem := Memory.setBytes [] (BitVec.ofNat 16 Params.programBase) rom, loadWindow := false } :=
  (step_idle_cons (c := .load rom) rfl rfl).trans (hostLoad_of_fits (s := State.reset) rfl (decide_eq_true h))

/-- Settles O1: the fields of the reset state, and the bytes of the loaded image. -/
theorem bootStateAndRomLoad : Obligations.BootStateAndRomLoad := by
  refine ⟨byte_nil, rfl, fun i => ?_, fun p => ?_, rfl, rfl, rfl, rfl, fun _ => rfl, rfl, rfl, rfl, rfl,
    fun rom h => ⟨_, step_load h, byte_romImage h⟩⟩
  · rw [reset_stack]
    exact ⟨rfl, rfl, rfl, reset_dat⟩
  · rw [reset_dev]
    exact ⟨rfl, reset_get⟩

/-- The pixel device at reset is what a resize to its default size leaves (R331). -/
theorem ppu_reset_eq_resize : Ppu.reset = Ppu.reset.resize Params.ppuDefaultWidth Params.ppuDefaultHeight := by
  decide

/-- Settles O2: empty memory, the pixel device of a resize, and stacks without faults or bytes. -/
theorem resetMeetsTheInvariants : Obligations.ResetMeetsTheInvariants := by
  have hwf : Ppu.reset.wf := ppu_reset_eq_resize ▸ wf_resize ..
  have hdirty : Ppu.reset.dirtyOk := ppu_reset_eq_resize ▸ dirtyOk_resize ..
  exact ⟨Memory.wf_nil, hwf, hdirty, faultsOk_of_clear ⟨rfl, rfl⟩ fun _ => rfl, reset_dat 255, reset_dat 255⟩

/-! ## EVALUATE -/

theorem halted_iff (s : State) : s.halted = true ↔ (s.dev 0x0#4).get 0xF#4 ≠ 0x00#8 := by
  simp [State.halted, Params.haltPort, Params.haltOffset]

/-- The clamp of R142 is a minimum. -/
theorem clamp_eq_min (p : Byte) :
    (if Params.wstEntryClamp < p then Params.wstEntryClamp else p) = BitVec.ofNat 8 (min p.toNat 0xF8) := by
  revert p
  decide

theorem evaluate_of_refused {s : State} {v : Short} (h : v = 0x0000#16 ∨ s.halted) :
    evaluate v s = { s with result := some false } := if_pos h

theorem evaluate_of_entered {s : State} {v : Short} (hv : v ≠ 0x0000#16) (hh : ¬ s.halted) :
    evaluate v s = enterEvaluation v s := if_neg (not_or.2 ⟨hv, hh⟩)

/-- Settles O42: both branches of EVALUATE as the next host transaction. -/
theorem evaluateIsRefusedOrEntered : Obligations.EvaluateIsRefusedOrEntered := by
  intro s v rest hr hin
  rw [step_idle_cons hr hin]
  have hhalt := halted_iff { s with hostIn := rest }
  refine ⟨fun h => ?_, fun hv h0 => ?_⟩
  · rw [hostStep, evaluate_of_refused (h.imp_right hhalt.2)]
  · rw [hostStep, evaluate_of_entered hv (fun h => hhalt.1 h h0), enterEvaluation, clamp_eq_min]

/-! ## The other transactions of the host -/

theorem readPixel_of_in {s : State} {x y : Short} (h : s.ppu.inBounds x y = true) :
    s.readPixel x y = { s with nibble := some (s.ppu.nibbleAt x y) } := if_pos h

theorem readPixel_of_out {s : State} {x y : Short} (h : ¬ s.ppu.inBounds x y = true) :
    s.readPixel x y = { s with nibble := some (Config.freeNibble s.draws), draws := s.draws + 1 } := if_neg h

/-- Settles O48: each transaction performed on the state without it; the two pokes are effects a body may have too. -/
theorem hostPokesAndPixelReads : Obligations.HostPokesAndPixelReads := by
  refine fun s rest hr => ⟨fun a v hin => ?_, fun p l v hin => ?_, fun _ _ _ _ => step_idle_cons hr,
    fun _ _ => step_idle_cons hr, step_idle_cons hr, fun _ => step_idle_cons hr, fun _ => step_idle_cons hr,
    fun x y hin => ?_⟩
  · exact ⟨s.act 0x0#4 (.memWrite a v), step_idle_cons hr hin, act_effect 0x0#4 s (.memWrite a v)⟩
  · exact ⟨s.act p (.setReg l v), step_idle_cons hr hin, act_effect p s (.setReg l v)⟩
  · rw [step_idle_cons hr hin]
    refine ⟨fun hx hy => congrArg Host.Outcome.next ?_, fun hout =>
      ⟨Config.freeNibble s.draws, congrArg Host.Outcome.next ?_⟩⟩
    · exact readPixel_of_in (s := { s with hostIn := rest }) ((inBounds_iff s.ppu x y).2 ⟨hx, hy⟩)
    · have hnot : ¬ s.ppu.inBounds x y = true := by
        rw [inBounds_iff]
        omega
      exact readPixel_of_out (s := { s with hostIn := rest }) hnot

/-! ## Half-done stack accesses -/

theorem push8_withFault_at_254 {S : Stack} (b : Byte) (k : FaultKind) (h : S.ptr = 254#8) :
    (S.push8 b).withFault k = { S with dat := S.dat.set 254 b, ptr := 255#8, fault := some k } := by
  obtain ⟨dat, ptr, kptr, fault⟩ := S
  subst h
  rfl

theorem push_short_at_254 {s : State} {i : StackId} (v : Short) (h : (s.stack i).ptr = 254#8) :
    push i .short v s = .error .fault (s.setStack i (((s.stack i).push8 (hiByte v)).withFault .overflow)) := by
  have first := push8_of_room (s := s) (hiByte v) (h.trans_ne (by decide))
  have second := push8_of_full (s := s.setStack i ((s.stack i).push8 (hiByte v))) (i := i) (loByte v)
    (by rw [stack_setStack_same, push8_ptr, h]; rfl)
  rw [stack_setStack_same, setStack_setStack] at second
  exact (bind_ok first).trans second

/-- The second byte of a short pop that finds one byte. -/
theorem pop_short_of_pop8 {s t u : State} {c : Ctx} {b : Byte} (first : pop8 c s = .ok b t)
    (second : pop8 c t = .error .fault u) : pop c .short s = .error .fault u :=
  (bind_ok first).trans (bind_error second)

/-- Settles O44: the first byte moves or not, and the second raises the fault. -/
theorem halfDoneStackAccesses : Obligations.HalfDoneStackAccesses := by
  refine fun s i v c => ⟨fun h => ⟨_, push_short_at_254 v h, push8_withFault_at_254 _ _ h⟩,
    fun h => bind_error (push8_of_full _ h), ?_, ?_⟩
  · rintro rfl hk h
    refine pop_short_of_pop8 (pop8_of_not_keep (k := 0) hk (by rw [h]; rfl)) ((pop8_of_empty ?_).trans ?_)
    · simp [hk]
    · rw [stack_setStack_same, setStack_setStack]
      rfl
  · rintro rfl hk h
    refine pop_short_of_pop8 (pop8_of_keep (k := 0) hk (by rw [h]; rfl)) ((pop8_of_empty ?_).trans ?_)
    · simp [hk]
    · rw [stack_setStack_same, setStack_setStack]
      rfl

end Sys2Proof.Machine
end
